-- ==== Sys2Proof/Word.lean ====
section
/-! DEFINITION. The word types of PBP-CORE (00_scope.md R8, 30_encoding.md R103). -/

namespace Sys2Proof

/-- A 32-bit word: register, control register, parameter value, sample, immediate, response (00_scope.md R8).
Read as `u32` through `BitVec.toNat`, as `f32` through the functions of Machine/Numeric.lean. -/
abbrev Word := BitVec 32

/-- A byte of the persisted-state image (20_memory.md R75) or of the model's sample memory (log 8). -/
abbrev Byte := BitVec 8

/-- A command packet `C[63:0]`: control word in bits 63:32, immediate in bits 31:0 (30_encoding.md R103). -/
abbrev Packet := BitVec 64

/-- A 3-bit data register number (30_encoding.md R106). -/
abbrev Reg := BitVec 3

/-- The 4-bit `ch` field: channel, oscillator, channel count or role number (30_encoding.md R104). -/
abbrev Chan := BitVec 4

/-- The 3-bit role number of a FWD event, `fwd_k` (30_encoding.md R102). -/
abbrev Role := BitVec 3

/-- A 5-bit parameter index (30_encoding.md R104, R106). -/
abbrev ParamIdx := BitVec 5

/-- An 8-bit CSR address (10_state.md R34). -/
abbrev CsrAddr := BitVec 8

end Sys2Proof
end

