-- ==== Sys2Proof/Syntax.lean ====
section
/-! DEFINITION. The commands of PBP-CORE: one constructor per row of the command map (30_encoding.md R108), and the
names its fields stand for. -/

namespace Sys2Proof

/-- The two command ports (30_encoding.md R100): `a` is the audio agent's, `c` the control agent's. -/
inductive Port where
  | a
  | c
deriving DecidableEq, Repr

/-- The interpolation modes of a tap read (30_encoding.md R106, 43_delay_line.md R205). -/
inductive Interp where
  | none
  | linear
  | allpass
  | cubic
deriving DecidableEq, Repr

/-- The all-pass state slots `APZ[0..2]` (10_state.md R56), named as 30_encoding.md R114 names them. -/
inductive Slot where
  | t0
  | t1
  | t2
deriving DecidableEq, Repr

/-- The control and status registers of the CSR map (10_state.md R35); the views carry their index. -/
inductive Csr where
  | status | ctrl | sr | blk | nch | cap | nparam
  | mode | kdrive | kcubic | kloth | khith | kbits | kpdrop | kdgain | kfold
  | kgain | kdepth | kmix | kfb | kdelay | kntap | kinterp
  | lfreq (l : Chan) | lphase (l : Chan) | lwave (l : Chan) | widx (c : Chan)
deriving DecidableEq, Repr

/-- The access kinds of a CSR (10_state.md R34). -/
inductive Access where
  | ro
  | rw
  | warl
deriving DecidableEq, Repr

/-- The 35 opcodes by mnemonic (30_encoding.md R108). -/
inductive Op where
  | nop | prepare | release | ldi | mov | rdr | csrr | csrw
  | fadd | fsub | fmul | fdiv
  | getp | pmin | pmax | pdef | setp | enc | dec | fwd
  | setf | lrst | lnext | setw
  | dlw | dladv | push | pop | dlfb
  | shape | thr
  | trem | dly | chor | dist
deriving DecidableEq, Repr

/-- A command with its fields (30_encoding.md R105, R108). Fields are the bits of the packet: a reserved field value
(`tap` = 3, `b` = 3, an index of an absent unit) is a command that is not well formed, not an absent command. -/
inductive Instr where
  | nop
  | prepare (ra rb : Reg) (nch : Chan) (pd : ParamIdx)
  | release
  | ldi (rd : Reg) (imm : Word)
  | mov (rd ra : Reg)
  | rdr (ra : Reg)
  | csrr (rd : Reg) (csr : CsrAddr)
  | csrw (csr : CsrAddr) (ra : Reg)
  | fadd (rd ra rb : Reg)
  | fsub (rd ra rb : Reg)
  | fmul (rd ra rb : Reg)
  | fdiv (rd ra rb : Reg)
  | getp (rd : Reg) (p : ParamIdx)
  | pmin (rd : Reg) (p : ParamIdx)
  | pmax (rd : Reg) (p : ParamIdx)
  | pdef (rd : Reg) (p : ParamIdx)
  | setp (p : ParamIdx) (imm : Word)
  | enc
  | dec
  | fwd (k : Chan) (p : ParamIdx)
  | setf (l : Chan) (ra : Reg)
  | lrst (l : Chan)
  | lnext (rd : Reg) (l : Chan)
  | setw (l : Chan) (w : BitVec 2)
  | dlw (c : Chan) (ra : Reg)
  | dladv (c : Chan)
  | push (c : Chan) (ra : Reg)
  | pop (rd ra : Reg) (c : Chan) (interp : Interp) (tap : BitVec 2)
  | dlfb (c : Chan) (ra rb rc : Reg)
  | shape (rd ra : Reg)
  | thr (b : BitVec 2) (ra : Reg)
  | trem (rd ra rb : Reg)
  | dly (rd ra : Reg) (c : Chan)
  | chor (rd ra rb : Reg) (c : Chan)
  | dist (rd ra : Reg)
deriving DecidableEq, Repr

/-- Why a command is suppressed: the names 60_exceptions.md R296 gives the cases (a) to (f) of 30_encoding.md R110.
The hardware does not tell them apart. -/
inductive Suppression where
  /-- (a) `S_OPCODE`: no such opcode. -/
  | opcode
  /-- (b) `S_UNUSED`: a bit the format does not use is set. -/
  | unused
  /-- (c) `S_PORT`: the port does not accept the command. -/
  | port
  /-- (d) `S_FIELD`: a field holds a reserved value. -/
  | field
  /-- (e) `S_CHANNEL`: a channel number at or above `CSR[NCH]`. -/
  | channel
  /-- (f) `S_NOT_PREPARED`: the command needs the prepared state. -/
  | notPrepared
deriving DecidableEq, Repr

end Sys2Proof
end

