-- ==== Sys2Proof/Config.lean ====
section
/-! DEFINITION. The configuration record of 00_scope.md R6 (log 1), the reference configuration of R6 and R7, and the
free values of the model: constants without a body, of which nothing can be proved but what holds of every value. -/

namespace Sys2Proof

/-- Byte order of the persisted state, `STATE_ENDIAN` (20_memory.md R75). -/
inductive Endian where
  | le
  | be
deriving DecidableEq, Repr

/-- The reading of "nearer boundary" in the threshold-gap mode, `GAP_CLAMP` (44_waveshaper.md R235). -/
inductive GapClamp where
  | nearer
  | low
deriving DecidableEq, Repr

/-- Which instance of `NUM.sin` and `NUM.atan` is meant (00_scope.md R22, log 7): `any` function with the stated
properties, or the `correctlyRounded` reference instance. -/
inductive NumInstance where
  | any
  | correctlyRounded
deriving DecidableEq, Repr

/-- A waveform function `WAVEFN[w]` for w ≥ 1, as plain data (00_scope.md R6, 42_oscillator.md R187): an arbitrary function,
`any k` for different k being unrelated ones, or the function a table lists, +0.0 for an operand it does not list. As
binary32 is finite, a table can name every function. -/
inductive Waveform where
  | any (k : Nat)
  | table (points : List (Word × Word))
deriving DecidableEq, Repr

/-- What the model does at the points of 60_exceptions.md R296 (log 4): `stop` records the named fault or refusal, as
the rule asks of a model; `run` does what the rule's last column says the hardware does. -/
inductive OpenPoints where
  | stop
  | run
deriving DecidableEq, Repr

/-- The constants of one declared parameter (10_state.md R50). -/
structure ParamDecl where
  min : Word
  max : Word
  dflt : Word
deriving DecidableEq, Repr

/-- The implementation parameters of 00_scope.md R6. `N_D` = 8 and `N_TAP` = 3 are fixed; `N_LFO` = `N_CH`. -/
structure Config where
  /-- `N_CH`, also `N_LFO`. -/
  nCh : Nat
  /-- `PTAB`; its length is `N_PARAM`. -/
  ptab : List ParamDecl
  /-- `CAP_MAX`. -/
  capMax : Nat
  /-- `CAP_MARGIN`. -/
  capMargin : Nat
  /-- `WAVEFN[w]` for w = 1, 2, …; `WAVEFN[0]` is `fsin`. -/
  waves : List Waveform
  /-- `BASE[0]`, the base constant of the low threshold. -/
  baseLow : Word
  /-- `BASE[1]`, the base constant of the high threshold. -/
  baseHigh : Word
  /-- `BASE[2]`, the base constant of the fold threshold. -/
  baseFold : Word
  /-- `EPS_DIV`. -/
  epsDiv : Word
  /-- `STATE_ENDIAN`. -/
  stateEndian : Endian
  /-- `GAP_CLAMP`. -/
  gapClamp : GapClamp
  /-- `UNSPEC_MODE`: `none`, or a mode 1 to 7. -/
  unspecMode : Option Nat
  /-- The instance of `NUM.sin` and `NUM.atan`. -/
  num : NumInstance
  /-- `LAT[op]` in clock cycles, for the commands whose latency is fixed; no rule reads it (log 15). -/
  lat : List (Op × Nat)
  /-- The treatment of the points of 60_exceptions.md R296. -/
  openPoints : OpenPoints
deriving DecidableEq, Repr

/-- `N_PARAM` (00_scope.md R6). -/
def Config.nParam (cfg : Config) : Nat := cfg.ptab.length

/-- `N_WAVE` (00_scope.md R6): the sine and the further waveforms. -/
def Config.nWave (cfg : Config) : Nat := cfg.waves.length + 1

/-- `WAVEFN[w]` for w ≥ 1; for w at or above `N_WAVE`, which no oscillator holds, an arbitrary function (log 13). -/
def Config.waveform (cfg : Config) (w : BitVec 2) : Waveform := cfg.waves.getD (w.toNat - 1) (.any w.toNat)

/-- `LAT[op]`, where the configuration fixes it (00_scope.md R6). -/
def Config.latency (cfg : Config) (op : Op) : Option Nat := cfg.lat.lookup op

/-- The declaration of parameter `p`; of no meaning for `p` at or above `N_PARAM`, which no command reaches. -/
def Config.param (cfg : Config) (p : ParamIdx) : ParamDecl :=
  cfg.ptab.getD p.toNat { min := 0, max := 0, dflt := 0 }

/-- The parameter table REF-DELAY: gain, delay, feedback, mix (00_scope.md R7). -/
def Config.refDelay : List ParamDecl :=
  [{ min := 0x00000000, max := 0x40000000, dflt := 0x3F800000 },
   { min := 0x00000000, max := 0x3F800000, dflt := 0x3E4CCCCD },
   { min := 0x00000000, max := 0x3F400000, dflt := 0x3E4CCCCD },
   { min := 0x00000000, max := 0x3F800000, dflt := 0x3F000000 }]

/-- The reference values of 00_scope.md R6 with REF-DELAY of R7. -/
def Config.reference : Config where
  nCh := 2
  ptab := Config.refDelay
  capMax := 262144
  capMargin := 4
  waves := []
  baseLow := 0x3F800000
  baseHigh := 0x3F800000
  baseFold := 0x3F800000
  epsDiv := 0x35800000
  stateEndian := .le
  gapClamp := .nearer
  unspecMode := none
  num := .correctlyRounded
  lat := []
  openPoints := .stop

/-- An arbitrary function behind `NUM.sin`; `fsin` keeps it within the properties of 00_scope.md R22 (log 7). -/
opaque Config.sinValue : Word → Word

/-- An arbitrary function behind `NUM.atan` (00_scope.md R22, log 7). -/
opaque Config.atanValue : Word → Word

/-- The arbitrary functions that the waveforms `any k` stand for (42_oscillator.md R187, log 7). -/
opaque Config.waveValue : Nat → Word → Word

/-- An arbitrary sequence behind `draw()` (10_state.md R59, log 6). -/
opaque Config.drawValue : Nat → Word

/-- An arbitrary sequence of words the spec calls unspecified (43_delay_line.md R207, log 5). -/
opaque Config.unspecifiedWord : Nat → Word

/-- An arbitrary sequence of arbitration decisions: is the A-port served first next time (20_memory.md R82, log 3). -/
opaque Config.servesAFirst : Nat → Bool

end Sys2Proof
end

