-- ==== Sys2Proof/Machine/Fields.lean ====
section
/-! DEFINITION. What the fields of a command may hold: the reserved values of 30_encoding.md R110 (d), which depend on the
configuration alone, and the CSR map (10_state.md R35). -/

namespace Sys2Proof.Machine

/-- The register at a CSR address, `none` for a reserved address (10_state.md R35): the views exist for l < N_LFO and
c < N_CH. -/
def csrAt (cfg : Config) (addr : CsrAddr) : Option Csr :=
  let low : Chan := addr.extractLsb' 0 4
  match (addr.extractLsb' 4 4 : BitVec 4).toNat with
  | 0x0 =>
    match low.toNat with
    | 0x0 => some .status
    | 0x1 => some .ctrl
    | 0x2 => some .sr
    | 0x3 => some .blk
    | 0x4 => some .nch
    | 0x5 => some .cap
    | 0x6 => some .nparam
    | _ => none
  | 0x1 =>
    match low.toNat with
    | 0x0 => some .mode
    | 0x1 => some .kdrive
    | 0x2 => some .kcubic
    | 0x3 => some .kloth
    | 0x4 => some .khith
    | 0x5 => some .kbits
    | 0x6 => some .kpdrop
    | 0x7 => some .kdgain
    | 0x8 => some .kfold
    | _ => none
  | 0x2 =>
    match low.toNat with
    | 0x0 => some .kgain
    | 0x1 => some .kdepth
    | 0x2 => some .kmix
    | 0x3 => some .kfb
    | 0x4 => some .kdelay
    | 0x5 => some .kntap
    | 0x6 => some .kinterp
    | _ => none
  | 0x4 => if low.toNat < cfg.nCh then some (.lfreq low) else none
  | 0x5 => if low.toNat < cfg.nCh then some (.lphase low) else none
  | 0x6 => if low.toNat < cfg.nCh then some (.lwave low) else none
  | 0x7 => if low.toNat < cfg.nCh then some (.widx low) else none
  | _ => none

/-- The access kind of a register (10_state.md R35). -/
def csrAccess : Csr → Access
  | .status | .sr | .blk | .nch | .cap | .nparam => .ro
  | .lfreq _ | .lphase _ | .lwave _ | .widx _ => .ro
  | .ctrl | .kbits | .kntap | .kinterp => .warl
  | .mode | .kdrive | .kcubic | .kloth | .khith | .kpdrop | .kdgain | .kfold => .rw
  | .kgain | .kdepth | .kmix | .kfb | .kdelay => .rw

/-- An address CSRR accepts. -/
def csrReadable (cfg : Config) (addr : CsrAddr) : Bool := (csrAt cfg addr).isSome

/-- An address CSRW accepts: in the map and not read only (40_system_datapath.md R138). -/
def csrWritable (cfg : Config) (addr : CsrAddr) : Bool :=
  match csrAt cfg addr with
  | some r => csrAccess r != .ro
  | none => false

/-- `p < N_PARAM`. -/
def paramExists (cfg : Config) (p : ParamIdx) : Bool := p.toNat < cfg.nParam

/-- `l < N_LFO`, with N_LFO = N_CH. -/
def lfoExists (cfg : Config) (l : Chan) : Bool := l.toNat < cfg.nCh

/-- `pd` of PREPARE: a parameter, or 31 for none. -/
def delayParamLegal (cfg : Config) (pd : ParamIdx) : Bool := pd = 31 || paramExists cfg pd

/-- `w < N_WAVE`. -/
def waveExists (cfg : Config) (w : BitVec 2) : Bool := w.toNat < cfg.nWave

/-- `tap` names a slot: 3 is reserved. -/
def tapLegal (tap : BitVec 2) : Bool := tap != 3

/-- `b` names a threshold: 3 is reserved. -/
def thresholdLegal (b : BitVec 2) : Bool := b != 3

/-- `k` is a role number 0 to 4. -/
def roleLegal (k : Chan) : Bool := k.toNat ≤ 4

/-- The slot a legal `tap` field names (30_encoding.md R106). -/
def slotOf (tap : BitVec 2) : Slot :=
  match tap.toNat with
  | 0 => .t0
  | 1 => .t1
  | _ => .t2

/-- The interpolation mode two bits name (30_encoding.md R106). -/
def interpOf (bits : BitVec 2) : Interp :=
  match bits.toNat with
  | 0 => .none
  | 1 => .linear
  | 2 => .allpass
  | _ => .cubic

/-- The two bits of an interpolation mode. -/
def interpBits : Interp → BitVec 2
  | .none => 0
  | .linear => 1
  | .allpass => 2
  | .cubic => 3

end Sys2Proof.Machine
end

