-- ==== Sys2Proof/Machine/Numeric.lean ====
section
/-! DEFINITION. The numeric primitives of 00_scope.md R11 to R20: IEEE 754 binary32 on words, each operation computed
exactly on integers and rounded once, to nearest with ties to even.

Every finite binary32 value is an integer number of units of 2^-149; `f32Mag` and `f32Val` give that integer. -/

namespace Sys2Proof.Machine

/-! ## Constants (00_scope.md R13, R18) -/

/-- The canonical quiet NaN (R13). -/
def qNaN : Word := 0x7FC00000

/-- `ZERO`, +0.0. -/
def fZero : Word := 0x00000000

/-- `ONE`. -/
def fOne : Word := 0x3F800000

/-- 2.0. -/
def fTwo : Word := 0x40000000

/-- 3.0. -/
def fThree : Word := 0x40400000

/-- 4.0. -/
def fFour : Word := 0x40800000

/-- 6.0. -/
def fSix : Word := 0x40C00000

/-- `INF`. -/
def fInf : Word := 0x7F800000

/-- `FLT_MAX`. -/
def fltMax : Word := 0x7F7FFFFF

/-- `PI`. -/
def fPi : Word := 0x40490FDB

/-- `TWO_PI`. -/
def twoPi : Word := 0x40C90FDB

/-- `TWO_OVER_PI`. -/
def twoOverPi : Word := 0x3F22F983

/-- The binary32 nearest π/2, the bound of (P-atan-4) in R22. -/
def halfPi : Word := 0x3FC90FDB

/-! ## The binary32 layout (R8) and classification (R13, R14) -/

/-- The sign bit. -/
def f32Neg (a : Word) : Bool := a.getLsbD 31

/-- The exponent field. -/
def f32Exp (a : Word) : Nat := a.toNat / 2 ^ 23 % 256

/-- The fraction field. -/
def f32Frac (a : Word) : Nat := a.toNat % 2 ^ 23

/-- `isnan` (R13). -/
def isNaN (a : Word) : Bool := f32Exp a == 255 && f32Frac a != 0

/-- An infinity of either sign. -/
def isInf (a : Word) : Bool := f32Exp a == 255 && f32Frac a == 0

/-- `isfinite` (R14). -/
def isFinite (a : Word) : Bool := f32Exp a != 255

/-- The magnitude in units of 2^-149; an infinity counts 2^277, above every finite value. -/
def f32Mag (a : Word) : Nat :=
  if f32Exp a = 0 then f32Frac a else (2 ^ 23 + f32Frac a) * 2 ^ (f32Exp a - 1)

/-- The value in units of 2^-149. -/
def f32Val (a : Word) : Int := if f32Neg a then -(f32Mag a : Int) else (f32Mag a : Int)

/-- A zero of either sign. -/
def isZero (a : Word) : Bool := f32Mag a == 0

/-- The word with the given sign and the given bits 30:0. -/
def f32Pack (neg : Bool) (bits : Nat) : Word :=
  BitVec.ofNat 32 (if neg then 2 ^ 31 + bits else bits)

/-- An infinity of the given sign. -/
def f32Inf (neg : Bool) : Word := f32Pack neg 0x7F800000

/-! ## Comparisons (R14) -/

/-- `a < b`: false where an operand is a NaN. -/
def flt (a b : Word) : Bool := !isNaN a && !isNaN b && decide (f32Val a < f32Val b)

/-- `a <= b`: false where an operand is a NaN. -/
def fle (a b : Word) : Bool := !isNaN a && !isNaN b && decide (f32Val a ≤ f32Val b)

/-- `a > b`. -/
def fgt (a b : Word) : Bool := flt b a

/-- `a >= b`. -/
def fge (a b : Word) : Bool := fle b a

/-- `a = b`: +0.0 and -0.0 are equal, a NaN equals nothing. -/
def feq (a b : Word) : Bool := !isNaN a && !isNaN b && decide (f32Val a = f32Val b)

/-! ## Sign operations (R15) -/

/-- `fabs`: clears bit 31. -/
def fabs (a : Word) : Word := a &&& 0x7FFFFFFF

/-- `fneg`: inverts bit 31. -/
def fneg (a : Word) : Word := a ^^^ 0x80000000

/-- `copysign a b`: a with bit 31 of b. -/
def copysign (a b : Word) : Word := (a &&& 0x7FFFFFFF) ||| (b &&& 0x80000000)

/-! ## Rounding (R12: roundTiesToEven, once) -/

/-- The integer nearest n/d, ties to even (d > 0). -/
def divNearestEven (n d : Nat) : Nat :=
  if 2 * (n % d) < d then n / d
  else if d < 2 * (n % d) then n / d + 1
  else n / d + n / d % 2

/-- Bits 30:0 of the binary32 nearest (n/d) · 2^-149, ties to even, an overflow giving an infinity. With `e` the
distance of the leading bit of n/d above bit 23, one unit in the last place is 2^e and the bits are e · 2^23 plus the
rounded count of such units; a carry out of the significand falls into the exponent field of itself. -/
def roundMag (n d : Nat) : Nat :=
  let e := Nat.log2 (n / d) - 23
  min (e * 2 ^ 23 + divNearestEven n (d * 2 ^ e)) 0x7F800000

/-- The rounded value of sign `neg` and magnitude (n/d) · 2^-149. -/
def fround (neg : Bool) (n d : Nat) : Word := f32Pack neg (roundMag n d)

/-! ## Arithmetic (R12, R13) -/

/-- `fadd`. An exact zero sum is -0.0 only where both operands are negative. -/
def fadd (a b : Word) : Word :=
  if isNaN a || isNaN b then qNaN
  else if isInf a then (if isInf b && f32Neg a != f32Neg b then qNaN else a)
  else if isInf b then b
  else if f32Val a + f32Val b = 0 then f32Pack (f32Neg a && f32Neg b) 0
  else fround (decide (f32Val a + f32Val b < 0)) (f32Val a + f32Val b).natAbs 1

/-- `fsub`: the sum with the negated second operand. -/
def fsub (a b : Word) : Word := fadd a (fneg b)

/-- The sign of a product or quotient. -/
def signOf (a b : Word) : Bool := f32Neg a != f32Neg b

/-- `fmul`. -/
def fmul (a b : Word) : Word :=
  if isNaN a || isNaN b then qNaN
  else if isInf a || isInf b then (if isZero a || isZero b then qNaN else f32Inf (signOf a b))
  else fround (signOf a b) (f32Mag a * f32Mag b) (2 ^ 149)

/-- `fdiv`. -/
def fdiv (a b : Word) : Word :=
  if isNaN a || isNaN b then qNaN
  else if isInf a then (if isInf b then qNaN else f32Inf (signOf a b))
  else if isInf b then f32Pack (signOf a b) 0
  else if isZero b then (if isZero a then qNaN else f32Inf (signOf a b))
  else fround (signOf a b) (f32Mag a * 2 ^ 149) (f32Mag b)

/-- The bits of the integer square root of `n` from bit `k` - 1 down, added to `r` where the square still fits. -/
def isqrtFrom (n : Nat) : Nat → Nat → Nat
  | 0, r => r
  | k + 1, r => isqrtFrom n k (if (r + 2 ^ k) * (r + 2 ^ k) ≤ n then r + 2 ^ k else r)

/-- The integer square root of `n`, for n < 2^426 (a 277-bit magnitude times 2^149). -/
def isqrt (n : Nat) : Nat := isqrtFrom n 213 0

/-- `fsqrt`. The root of m · 2^-149 is the root of m · 2^149 in units of 2^-149; it has more than 74 bits, so half a
unit added for an inexact root decides every rounding as the exact root does. -/
def fsqrt (a : Word) : Word :=
  if isNaN a then qNaN
  else if isZero a then a
  else if f32Neg a then qNaN
  else if isInf a then a
  else
    let n := f32Mag a * 2 ^ 149
    let r := isqrt n
    fround false (if r * r = n then 2 * r else 2 * r + 1) 2

/-! ## Rounding to an integer (R15) -/

/-- The sign of `a` with an integer magnitude `k`, exact. -/
def integralLike (a : Word) (k : Nat) : Word := fround (f32Neg a) (k * 2 ^ 149) 1

/-- The integer part of the magnitude, rounded toward zero. -/
def magFloor (a : Word) : Nat := f32Mag a / 2 ^ 149

/-- The integer part of the magnitude, rounded away from zero. -/
def magCeil (a : Word) : Nat := (f32Mag a + (2 ^ 149 - 1)) / 2 ^ 149

/-- `ffloor`: the largest integer not above a. -/
def ffloor (a : Word) : Word :=
  if isNaN a then qNaN else if isInf a then a
  else integralLike a (if f32Neg a then magCeil a else magFloor a)

/-- `fceil`: the least integer not below a. -/
def fceil (a : Word) : Word :=
  if isNaN a then qNaN else if isInf a then a
  else integralLike a (if f32Neg a then magFloor a else magCeil a)

/-- `frint`: the nearest integer, ties to the even integer. -/
def frint (a : Word) : Word :=
  if isNaN a then qNaN else if isInf a then a
  else integralLike a (divNearestEven (f32Mag a) (2 ^ 149))

/-! ## Remainder (R16), conversions (R17), clamps (R19, R20) -/

/-- `fmodt`: the truncated remainder, C's `fmod`; exact, with the sign of a. -/
def fmodt (a b : Word) : Word :=
  if isNaN a || isNaN b then qNaN
  else if isInf a || isZero b then qNaN
  else if isInf b then a
  else fround (f32Neg a) (f32Mag a % f32Mag b) 1

/-- `u2f`: the binary32 nearest the unsigned integer n. -/
def u2f (n : Nat) : Word := fround false (n * 2 ^ 149) 1

/-- `f2u`: the integer a finite integer-valued a ≥ 0 stands for (-0.0 counts as 0). -/
def f2u (a : Word) : Nat := f32Mag a / 2 ^ 149

/-- `pow2`: the binary32 2^n, for 0 ≤ n ≤ 31. -/
def pow2 (n : Nat) : Word := f32Pack false ((127 + n) * 2 ^ 23)

/-- `clampf`: two comparisons; a value inside the range keeps its bits. -/
def clampf (v lo hi : Word) : Word := if flt v lo then lo else if flt hi v then hi else v

/-- `clampu` on a word read as u32. -/
def clampu (v : Word) (lo hi : Nat) : Word :=
  if v.toNat < lo then BitVec.ofNat 32 lo else if hi < v.toNat then BitVec.ofNat 32 hi else v

end Sys2Proof.Machine
end

