-- ==== Sys2Proof/WellFormed.lean ====
section
/-! DEFINITION. Well-formed configurations (00_scope.md R6) and well-formed commands: no field holds a reserved value
(30_encoding.md R110 (d)). -/

namespace Sys2Proof

/-! ## Configurations (00_scope.md R6) -/

/-- A declared parameter: three finite values with `MIN ≤ DEF ≤ MAX`. -/
def ParamDecl.wf (q : ParamDecl) : Bool :=
  Machine.isFinite q.min && Machine.isFinite q.max && Machine.isFinite q.dflt &&
    Machine.fle q.min q.dflt && Machine.fle q.dflt q.max

/-- A finite value above zero. -/
def positiveFinite (w : Word) : Bool := Machine.isFinite w && Machine.fgt w Machine.fZero

/-- The results a table of `WAVEFN[w]` lists lie within [-1, 1]; an `any` is kept within its range where it is used. -/
def Waveform.wf : Waveform → Bool
  | .any _ => true
  | .table points => points.all fun q => Machine.fle (Machine.fneg Machine.fOne) q.2 && Machine.fle q.2 Machine.fOne

/-- The column "Constraint" of 00_scope.md R6. -/
def Config.wf (cfg : Config) : Bool :=
  (decide (1 ≤ cfg.nCh) && decide (cfg.nCh ≤ 15)) &&
    (decide (1 ≤ cfg.nParam) && decide (cfg.nParam ≤ 31)) &&
    cfg.ptab.all ParamDecl.wf &&
    (decide (cfg.capMargin ≤ cfg.capMax) && decide (cfg.capMax ≤ 2 ^ 24)) &&
    decide (4 ≤ cfg.capMargin) &&
    (decide (cfg.nWave ≤ 4) && cfg.waves.all Waveform.wf) &&
    (positiveFinite cfg.baseLow && positiveFinite cfg.baseHigh && positiveFinite cfg.baseFold) &&
    positiveFinite cfg.epsDiv &&
    match cfg.unspecMode with
    | none => true
    | some m => decide (1 ≤ m) && decide (m ≤ 7)

/-! ## Commands (30_encoding.md R110) -/

/-- No field of the command holds a reserved value (30_encoding.md R110 (d)). -/
def Instr.wf (cfg : Config) : Instr → Bool
  | .nop => true
  | .prepare _ _ _ pd => Machine.delayParamLegal cfg pd
  | .release => true
  | .ldi _ _ => true
  | .mov _ _ => true
  | .rdr _ => true
  | .csrr _ csr => Machine.csrReadable cfg csr
  | .csrw csr _ => Machine.csrWritable cfg csr
  | .fadd _ _ _ => true
  | .fsub _ _ _ => true
  | .fmul _ _ _ => true
  | .fdiv _ _ _ => true
  | .getp _ p => Machine.paramExists cfg p
  | .pmin _ p => Machine.paramExists cfg p
  | .pmax _ p => Machine.paramExists cfg p
  | .pdef _ p => Machine.paramExists cfg p
  | .setp p _ => Machine.paramExists cfg p
  | .enc => true
  | .dec => true
  | .fwd k p => Machine.roleLegal k && Machine.paramExists cfg p
  | .setf l _ => Machine.lfoExists cfg l
  | .lrst l => Machine.lfoExists cfg l
  | .lnext _ l => Machine.lfoExists cfg l
  | .setw l w => Machine.lfoExists cfg l && Machine.waveExists cfg w
  | .dlw _ _ => true
  | .dladv _ => true
  | .push _ _ => true
  | .pop _ _ _ _ tap => Machine.tapLegal tap
  | .dlfb _ _ _ _ => true
  | .shape _ _ => true
  | .thr b _ => Machine.thresholdLegal b
  | .trem _ _ _ => true
  | .dly _ _ _ => true
  | .chor _ _ _ _ => true
  | .dist _ _ => true

end Sys2Proof
end

