-- ==== Sys2Proof/Decode.lean ====
section
/-! DEFINITION. The command map (30_encoding.md R108), the decoder from packets and the encoder to them. -/

namespace Sys2Proof

/-! ## The command map (30_encoding.md R108) -/

/-- The opcode byte of a row. -/
def Op.code : Op → BitVec 8
  | .nop => 0x00
  | .prepare => 0x01
  | .release => 0x02
  | .ldi => 0x08
  | .mov => 0x09
  | .rdr => 0x0A
  | .csrr => 0x0C
  | .csrw => 0x0D
  | .fadd => 0x10
  | .fsub => 0x11
  | .fmul => 0x12
  | .fdiv => 0x13
  | .getp => 0x18
  | .pmin => 0x19
  | .pmax => 0x1A
  | .pdef => 0x1B
  | .setp => 0x1C
  | .enc => 0x1D
  | .dec => 0x1E
  | .fwd => 0x1F
  | .setf => 0x20
  | .lrst => 0x21
  | .lnext => 0x22
  | .setw => 0x23
  | .dlw => 0x28
  | .dladv => 0x29
  | .push => 0x2A
  | .pop => 0x2B
  | .dlfb => 0x2C
  | .shape => 0x30
  | .thr => 0x31
  | .trem => 0x38
  | .dly => 0x39
  | .chor => 0x3A
  | .dist => 0x3B

/-- The column "match" of a row. -/
def Op.pattern : Op → Word
  | .nop => 0x00000000
  | .prepare => 0x01000000
  | .release => 0x02000000
  | .ldi => 0x08000000
  | .mov => 0x09000000
  | .rdr => 0x0A000000
  | .csrr => 0x0C000000
  | .csrw => 0x0D000000
  | .fadd => 0x10000000
  | .fsub => 0x11000000
  | .fmul => 0x12000000
  | .fdiv => 0x13000000
  | .getp => 0x18000000
  | .pmin => 0x19000000
  | .pmax => 0x1A000000
  | .pdef => 0x1B000000
  | .setp => 0x1C000000
  | .enc => 0x1D000000
  | .dec => 0x1E000000
  | .fwd => 0x1F000000
  | .setf => 0x20000000
  | .lrst => 0x21000000
  | .lnext => 0x22000000
  | .setw => 0x23000000
  | .dlw => 0x28000000
  | .dladv => 0x29000000
  | .push => 0x2A000000
  | .pop => 0x2B000000
  | .dlfb => 0x2C000000
  | .shape => 0x30000000
  | .thr => 0x31000000
  | .trem => 0x38000000
  | .dly => 0x39000000
  | .chor => 0x3A000000
  | .dist => 0x3B000000

/-- The column "mask" of a row: the opcode and every bit the format does not use. -/
def Op.mask : Op → Word
  | .nop => 0xFFFFFFFF
  | .prepare => 0xFFE070E0
  | .release => 0xFFFFFFFF
  | .ldi => 0xFF1FFFFF
  | .mov => 0xFF03FFFF
  | .rdr => 0xFFE3FFFF
  | .csrr => 0xFF1FFF00
  | .csrw => 0xFFE3FF00
  | .fadd => 0xFF007FFF
  | .fsub => 0xFF007FFF
  | .fmul => 0xFF007FFF
  | .fdiv => 0xFF007FFF
  | .getp => 0xFF1FFFE0
  | .pmin => 0xFF1FFFE0
  | .pmax => 0xFF1FFFE0
  | .pdef => 0xFF1FFFE0
  | .setp => 0xFFFFFFE0
  | .enc => 0xFFFFFFFF
  | .dec => 0xFFFFFFFF
  | .fwd => 0xFFFFF0E0
  | .setf => 0xFFE3F0FF
  | .lrst => 0xFFFFF0FF
  | .lnext => 0xFF1FF0FF
  | .setw => 0xFFFFF0FC
  | .dlw => 0xFFE3F0FF
  | .dladv => 0xFFFFF0FF
  | .push => 0xFFE3F0FF
  | .pop => 0xFF03F0F0
  | .dlfb => 0xFFE000FF
  | .shape => 0xFF03FFFF
  | .thr => 0xFFE3FFFC
  | .trem => 0xFF007FFF
  | .dly => 0xFF03F0FF
  | .chor => 0xFF0070FF
  | .dist => 0xFF03FFFF

/-- The command uses the immediate; every other command needs it zero (30_encoding.md R107). -/
def Op.usesImm : Op → Bool
  | .ldi | .setp => true
  | _ => false

/-- The column "Port": the port accepts the command (60_exceptions.md R299). -/
def Op.onPort (op : Op) : Port → Bool
  | .a => match op with
    | .setp | .enc | .dec => false
    | _ => true
  | .c => match op with
    | .nop | .getp | .pmin | .pmax | .pdef | .setp | .enc | .dec => true
    | _ => false

/-- The column "Prep": suppressed while `STATUS.PREPARED` = 0 (60_exceptions.md R293). -/
def Op.needsPrepared : Op → Bool
  | .lnext | .dlw | .dladv | .push | .pop | .dlfb | .dly | .chor => true
  | _ => false

/-- The row of an opcode byte; `none` for the reserved opcodes (30_encoding.md R110 (a)). -/
def opOf (code : BitVec 8) : Option Op :=
  match code.toNat with
  | 0x00 => some .nop
  | 0x01 => some .prepare
  | 0x02 => some .release
  | 0x08 => some .ldi
  | 0x09 => some .mov
  | 0x0A => some .rdr
  | 0x0C => some .csrr
  | 0x0D => some .csrw
  | 0x10 => some .fadd
  | 0x11 => some .fsub
  | 0x12 => some .fmul
  | 0x13 => some .fdiv
  | 0x18 => some .getp
  | 0x19 => some .pmin
  | 0x1A => some .pmax
  | 0x1B => some .pdef
  | 0x1C => some .setp
  | 0x1D => some .enc
  | 0x1E => some .dec
  | 0x1F => some .fwd
  | 0x20 => some .setf
  | 0x21 => some .lrst
  | 0x22 => some .lnext
  | 0x23 => some .setw
  | 0x28 => some .dlw
  | 0x29 => some .dladv
  | 0x2A => some .push
  | 0x2B => some .pop
  | 0x2C => some .dlfb
  | 0x30 => some .shape
  | 0x31 => some .thr
  | 0x38 => some .trem
  | 0x39 => some .dly
  | 0x3A => some .chor
  | 0x3B => some .dist
  | _ => none

/-- The row a command belongs to. -/
def Instr.op : Instr → Op
  | .nop => .nop
  | .prepare _ _ _ _ => .prepare
  | .release => .release
  | .ldi _ _ => .ldi
  | .mov _ _ => .mov
  | .rdr _ => .rdr
  | .csrr _ _ => .csrr
  | .csrw _ _ => .csrw
  | .fadd _ _ _ => .fadd
  | .fsub _ _ _ => .fsub
  | .fmul _ _ _ => .fmul
  | .fdiv _ _ _ => .fdiv
  | .getp _ _ => .getp
  | .pmin _ _ => .pmin
  | .pmax _ _ => .pmax
  | .pdef _ _ => .pdef
  | .setp _ _ => .setp
  | .enc => .enc
  | .dec => .dec
  | .fwd _ _ => .fwd
  | .setf _ _ => .setf
  | .lrst _ => .lrst
  | .lnext _ _ => .lnext
  | .setw _ _ => .setw
  | .dlw _ _ => .dlw
  | .dladv _ => .dladv
  | .push _ _ => .push
  | .pop _ _ _ _ _ => .pop
  | .dlfb _ _ _ _ => .dlfb
  | .shape _ _ => .shape
  | .thr _ _ => .thr
  | .trem _ _ _ => .trem
  | .dly _ _ _ => .dly
  | .chor _ _ _ _ => .chor
  | .dist _ _ => .dist

/-! ## The packet and its fields (30_encoding.md R103, R104) -/

/-- The control word `C[63:32]`. -/
def packetCw (pkt : Packet) : Word := pkt.extractLsb' 32 32

/-- The immediate `C[31:0]`. -/
def packetImm (pkt : Packet) : Word := pkt.extractLsb' 0 32

/-- The field `op`. -/
def cwOp (cw : Word) : BitVec 8 := cw.extractLsb' 24 8

/-- The field `rd`. -/
def cwRd (cw : Word) : Reg := cw.extractLsb' 21 3

/-- The field `ra`. -/
def cwRa (cw : Word) : Reg := cw.extractLsb' 18 3

/-- The field `rb`. -/
def cwRb (cw : Word) : Reg := cw.extractLsb' 15 3

/-- The field `rc`. -/
def cwRc (cw : Word) : Reg := cw.extractLsb' 12 3

/-- The field `ch`. -/
def cwCh (cw : Word) : Chan := cw.extractLsb' 8 4

/-- The sub-field `p` or `pd`, `f[4:0]`. -/
def cwP (cw : Word) : ParamIdx := cw.extractLsb' 0 5

/-- The sub-field `csr`, `f[7:0]`. -/
def cwCsr (cw : Word) : CsrAddr := cw.extractLsb' 0 8

/-- The sub-fields `w`, `b` and `interp`, `f[1:0]`. -/
def cwLow2 (cw : Word) : BitVec 2 := cw.extractLsb' 0 2

/-- The sub-field `tap`, `f[3:2]`. -/
def cwTap (cw : Word) : BitVec 2 := cw.extractLsb' 2 2

/-! ## Decoding -/

/-- The command of a row with its operands (30_encoding.md R105, R106). -/
def operandsOf (op : Op) (cw imm : Word) : Instr :=
  match op with
  | .nop => .nop
  | .prepare => .prepare (cwRa cw) (cwRb cw) (cwCh cw) (cwP cw)
  | .release => .release
  | .ldi => .ldi (cwRd cw) imm
  | .mov => .mov (cwRd cw) (cwRa cw)
  | .rdr => .rdr (cwRa cw)
  | .csrr => .csrr (cwRd cw) (cwCsr cw)
  | .csrw => .csrw (cwCsr cw) (cwRa cw)
  | .fadd => .fadd (cwRd cw) (cwRa cw) (cwRb cw)
  | .fsub => .fsub (cwRd cw) (cwRa cw) (cwRb cw)
  | .fmul => .fmul (cwRd cw) (cwRa cw) (cwRb cw)
  | .fdiv => .fdiv (cwRd cw) (cwRa cw) (cwRb cw)
  | .getp => .getp (cwRd cw) (cwP cw)
  | .pmin => .pmin (cwRd cw) (cwP cw)
  | .pmax => .pmax (cwRd cw) (cwP cw)
  | .pdef => .pdef (cwRd cw) (cwP cw)
  | .setp => .setp (cwP cw) imm
  | .enc => .enc
  | .dec => .dec
  | .fwd => .fwd (cwCh cw) (cwP cw)
  | .setf => .setf (cwCh cw) (cwRa cw)
  | .lrst => .lrst (cwCh cw)
  | .lnext => .lnext (cwRd cw) (cwCh cw)
  | .setw => .setw (cwCh cw) (cwLow2 cw)
  | .dlw => .dlw (cwCh cw) (cwRa cw)
  | .dladv => .dladv (cwCh cw)
  | .push => .push (cwCh cw) (cwRa cw)
  | .pop => .pop (cwRd cw) (cwRa cw) (cwCh cw) (Machine.interpOf (cwLow2 cw)) (cwTap cw)
  | .dlfb => .dlfb (cwCh cw) (cwRa cw) (cwRb cw) (cwRc cw)
  | .shape => .shape (cwRd cw) (cwRa cw)
  | .thr => .thr (cwLow2 cw) (cwRa cw)
  | .trem => .trem (cwRd cw) (cwRa cw) (cwRb cw)
  | .dly => .dly (cwRd cw) (cwRa cw) (cwCh cw)
  | .chor => .chor (cwRd cw) (cwRa cw) (cwRb cw) (cwCh cw)
  | .dist => .dist (cwRd cw) (cwRa cw)

/-- The packet has a non-zero bit its format does not use (30_encoding.md R107, R110 (b)): a control word w is of the
row when `w & mask = match`, and only LDI and SETP use the immediate. -/
def unusedBitSet (op : Op) (cw imm : Word) : Bool :=
  cw &&& op.mask != op.pattern || (!op.usesImm && imm != 0)

/-- The command of a packet, or the case (a) or (b) of 30_encoding.md R110 that makes it illegal. -/
def decode (pkt : Packet) : Except Suppression Instr :=
  match opOf (cwOp (packetCw pkt)) with
  | none => .error .opcode
  | some op =>
    if unusedBitSet op (packetCw pkt) (packetImm pkt) then .error .unused
    else .ok (operandsOf op (packetCw pkt) (packetImm pkt))

/-! ## Encoding -/

/-- The control word with the given fields; a field a format does not use is zero (30_encoding.md R104, R107). -/
def controlWord (op : Op) (rd ra rb rc : Reg) (ch : Chan) (f : BitVec 8) : Word :=
  op.code ++ rd ++ ra ++ rb ++ rc ++ ch ++ f

/-- The control word of a command. -/
def encodeCw : Instr → Word
  | .nop => controlWord .nop 0 0 0 0 0 0
  | .prepare ra rb nch pd => controlWord .prepare 0 ra rb 0 nch ((0 : BitVec 3) ++ pd)
  | .release => controlWord .release 0 0 0 0 0 0
  | .ldi rd _ => controlWord .ldi rd 0 0 0 0 0
  | .mov rd ra => controlWord .mov rd ra 0 0 0 0
  | .rdr ra => controlWord .rdr 0 ra 0 0 0 0
  | .csrr rd csr => controlWord .csrr rd 0 0 0 0 csr
  | .csrw csr ra => controlWord .csrw 0 ra 0 0 0 csr
  | .fadd rd ra rb => controlWord .fadd rd ra rb 0 0 0
  | .fsub rd ra rb => controlWord .fsub rd ra rb 0 0 0
  | .fmul rd ra rb => controlWord .fmul rd ra rb 0 0 0
  | .fdiv rd ra rb => controlWord .fdiv rd ra rb 0 0 0
  | .getp rd p => controlWord .getp rd 0 0 0 0 ((0 : BitVec 3) ++ p)
  | .pmin rd p => controlWord .pmin rd 0 0 0 0 ((0 : BitVec 3) ++ p)
  | .pmax rd p => controlWord .pmax rd 0 0 0 0 ((0 : BitVec 3) ++ p)
  | .pdef rd p => controlWord .pdef rd 0 0 0 0 ((0 : BitVec 3) ++ p)
  | .setp p _ => controlWord .setp 0 0 0 0 0 ((0 : BitVec 3) ++ p)
  | .enc => controlWord .enc 0 0 0 0 0 0
  | .dec => controlWord .dec 0 0 0 0 0 0
  | .fwd k p => controlWord .fwd 0 0 0 0 k ((0 : BitVec 3) ++ p)
  | .setf l ra => controlWord .setf 0 ra 0 0 l 0
  | .lrst l => controlWord .lrst 0 0 0 0 l 0
  | .lnext rd l => controlWord .lnext rd 0 0 0 l 0
  | .setw l w => controlWord .setw 0 0 0 0 l ((0 : BitVec 6) ++ w)
  | .dlw c ra => controlWord .dlw 0 ra 0 0 c 0
  | .dladv c => controlWord .dladv 0 0 0 0 c 0
  | .push c ra => controlWord .push 0 ra 0 0 c 0
  | .pop rd ra c interp tap => controlWord .pop rd ra 0 0 c ((0 : BitVec 4) ++ tap ++ Machine.interpBits interp)
  | .dlfb c ra rb rc => controlWord .dlfb 0 ra rb rc c 0
  | .shape rd ra => controlWord .shape rd ra 0 0 0 0
  | .thr b ra => controlWord .thr 0 ra 0 0 0 ((0 : BitVec 6) ++ b)
  | .trem rd ra rb => controlWord .trem rd ra rb 0 0 0
  | .dly rd ra c => controlWord .dly rd ra 0 0 c 0
  | .chor rd ra rb c => controlWord .chor rd ra rb 0 c 0
  | .dist rd ra => controlWord .dist rd ra 0 0 0 0

/-- The immediate of a command. -/
def encodeImm : Instr → Word
  | .ldi _ imm => imm
  | .setp _ imm => imm
  | _ => 0

/-- The packet of a command. -/
def encode (i : Instr) : Packet := encodeCw i ++ encodeImm i

/-! ## The numbering of spec/opcode_table.json (log 14) -/

/-- The packet whose bits `w` gives in the table's numbering: the control word is the first 32-bit word, the immediate
the second; bits from `nbits` on are zero. -/
def tablePacket (nbits w : Nat) : Packet :=
  BitVec.ofNat 32 (w % 2 ^ nbits) ++ BitVec.ofNat 32 (w % 2 ^ nbits / 2 ^ 32)

/-- The command the decoder reads from a word in the table's numbering. -/
def decodeTableWord (nbits w : Nat) : Option Instr :=
  match decode (tablePacket nbits w) with
  | .ok i => some i
  | .error _ => none

/-- The port that accepts the packet's command: the C-port for SETP, ENC and DEC, else the A-port. -/
def acceptingPort (pkt : Packet) : Port :=
  match decode pkt with
  | .ok i => if i.op.onPort .a then .a else .c
  | .error _ => .a

end Sys2Proof
end

