-- ==== Sys2Proof/Machine/State.lean ====
section
/-! DEFINITION. The state of PBP-CORE (10_state.md), its ports as data, the faults and refusals of the model, and reset. -/

namespace Sys2Proof.Machine

/-- The sample memory as bytes in canonical form: addresses strictly rising, no zero byte listed; an unlisted byte reads
as zero (log 8). The addresses are those of `dlAddr` in Machine/Ops.lean. -/
abbrev Memory := List Host.Cell

/-- The control and status registers with storage (10_state.md R35); NPARAM and the views have none. -/
structure Csrs where
  /-- 0x00: bit 0 PREPARED, bit 1 ILL, bit 2 PERR (R36). -/
  status : Word
  /-- 0x01: bit 0 RPOP (R37). -/
  ctrl : Word
  /-- 0x02: sample rate, f32 (R38). -/
  sr : Word
  /-- 0x03: maximum block size, u32 (R38). -/
  blk : Word
  /-- 0x04: channel count, u32 (R38). -/
  nch : Word
  /-- 0x05: delay-line capacity in samples, u32 (R38). -/
  cap : Word
  /-- 0x10: distortion mode, u32 (R39). -/
  mode : Word
  /-- 0x11: drive of mode 1 (R40). -/
  kdrive : Word
  /-- 0x12: coefficient of mode 2 (R40). -/
  kcubic : Word
  /-- 0x13: low threshold of mode 4 (R40). -/
  kloth : Word
  /-- 0x14: high threshold of mode 4 (R40). -/
  khith : Word
  /-- 0x15: bits of mode 5, u32 1 to 32 (R41). -/
  kbits : Word
  /-- 0x16: drop probability of mode 6 (R40). -/
  kpdrop : Word
  /-- 0x17: pass-through gain of mode 6 (R40). -/
  kdgain : Word
  /-- 0x18: threshold of mode 7 (R40). -/
  kfold : Word
  /-- 0x20: output gain of the kernels (R42). -/
  kgain : Word
  /-- 0x21: modulation depth (R42). -/
  kdepth : Word
  /-- 0x22: wet/dry mix (R42). -/
  kmix : Word
  /-- 0x23: feedback coefficient (R42). -/
  kfb : Word
  /-- 0x24: base delay in samples (R42). -/
  kdelay : Word
  /-- 0x25: chorus tap count, u32 1 to 3 (R43). -/
  kntap : Word
  /-- 0x26: interpolation mode, u32 0 to 3 (R43). -/
  kinterp : Word
deriving DecidableEq, Repr

/-- An oscillator (10_state.md R52). -/
structure Lfo where
  freq : Word
  phase : Word
  wave : BitVec 2
deriving DecidableEq, Repr

/-- The all-pass state of a delay line, one word per slot (10_state.md R56). -/
structure Apz where
  t0 : Word
  t1 : Word
  t2 : Word
deriving DecidableEq, Repr

/-- The bookkeeping of a delay line: write index and all-pass state (10_state.md R54, R56). -/
structure DelayLine where
  w : Nat
  apz : Apz
deriving DecidableEq, Repr

/-- An event of the streams SO and SI: a byte and its end mark (10_state.md R60). -/
structure StreamByte where
  byte : Byte
  last : Bool
deriving DecidableEq, Repr

/-- What the C-port has in progress after a command was accepted (46_state_codec.md R281, R283). -/
inductive Stream where
  /-- Nothing: the port can accept a command. -/
  | idle
  /-- An ENC whose bytes `rest` the consumer has not taken yet. -/
  | enc (rest : List StreamByte)
  /-- A DEC with `n` complete groups behind it and the bytes of the current group. -/
  | dec (n : Nat) (pending : List Byte)
deriving DecidableEq, Repr

/-- The two command ports and the streams as data (30_encoding.md R101, R102; log 2, 3, 10, 11). -/
structure Ports where
  /-- The packets the audio agent presents, in order. -/
  aCmds : List Packet
  /-- The packets the control agent presents, in order. -/
  cCmds : List Packet
  /-- The port whose command is executing (40_system_datapath.md R131). -/
  port : Port
  /-- The port served first when both can move. -/
  turn : Port
  /-- The transfer the C-port has in progress. -/
  stream : Stream
  /-- The bytes SI delivers, not yet consumed. -/
  si : List StreamByte
  /-- How many more bytes the consumer of SO takes. -/
  soRoom : Nat
  /-- The reset input. -/
  rst : Bool
deriving DecidableEq, Repr

/-- A response word and the port it is returned on (30_encoding.md R113). -/
structure Response where
  port : Port
  word : Word
deriving DecidableEq, Repr

/-- An event of the NOTIFY port: parameter index and stored value (10_state.md R60). -/
structure NotifyEvent where
  p : ParamIdx
  v : Word
deriving DecidableEq, Repr

/-- An event of the FWD port: role number and value (10_state.md R60, 30_encoding.md R102). -/
structure FwdEvent where
  k : Role
  v : Word
deriving DecidableEq, Repr

/-- The output histories, oldest first; no rule reads them (10_state.md R60). -/
structure Events where
  rsps : List Response
  notify : List NotifyEvent
  fwd : List FwdEvent
  so : List StreamByte
deriving DecidableEq, Repr

/-- The state of the machine (10_state.md R30), its ports and outputs, its configuration (log 1) and the model's counters
of free values. The slots of `cur` from N_PARAM on, and of `lfos` and `dls` from N_CH on, belong to no hardware
(log 12). -/
structure State where
  /-- The configuration: written by no step. -/
  cfg : Config
  /-- `D0` to `D7` (R31). -/
  d : Vector Word 8
  /-- The control and status registers (R35). -/
  csr : Csrs
  /-- `P[p].CUR` (R50). -/
  cur : Vector Word 32
  /-- `LFO[l]` (R52). -/
  lfos : Vector Lfo 16
  /-- `DL[c].W` and `DL[c].APZ` (R54, R56). -/
  dls : Vector DelayLine 16
  /-- The sample memory (20_memory.md R70). -/
  mem : Memory
  /-- The ports. -/
  ports : Ports
  /-- The outputs. -/
  events : Events
  /-- How many draws have been consumed (log 6). -/
  draws : Nat
  /-- How many unspecified words have been consumed (log 5). -/
  unspecs : Nat
  /-- How many contested arbitrations have been decided (log 3). -/
  grants : Nat
deriving DecidableEq, Repr

/-- The model faults of 60_exceptions.md R296. They are raised only where the configuration asks the model to stop at
these points (log 4); the hardware goes on, so stopping is safe. -/
inductive Fault where
  /-- `F_DELAY_RANGE`: POP, DLY or CHOR with a delay that fails 43_delay_line.md R206. Safe. -/
  | delayRange
  /-- `F_NONFINITE_PHASE`: LNEXT with an advanced phase that is not finite (42_oscillator.md R186). Safe. -/
  | nonfinitePhase
deriving DecidableEq, Repr

/-- The refusals of the model. -/
inductive Refusal where
  /-- An instruction without a meaning in this model; raised by no arm. Safe. -/
  | notModelled (mnemonic : String)
  /-- `R_UNSPEC_MODE`: SHAPE or DIST in the mode the configuration names as not designed (44_waveshaper.md R244), raised
  only where the configuration asks the model to stop there (log 4). Safe. -/
  | unspecMode
deriving DecidableEq, Repr

/-- The reset values of the control and status registers (10_state.md R35). -/
def Csrs.reset : Csrs where
  status := 0x00000000
  ctrl := 0x00000001
  sr := 0x00000000
  blk := 0
  nch := 0
  cap := 0
  mode := 0
  kdrive := 0x3F800000
  kcubic := 0x00000000
  kloth := 0x00000000
  khith := 0x00000000
  kbits := 32
  kpdrop := 0x00000000
  kdgain := 0x3F800000
  kfold := 0x7F800000
  kgain := 0x3F800000
  kdepth := 0x00000000
  kmix := 0x00000000
  kfb := 0x00000000
  kdelay := 0x00000000
  kntap := 1
  kinterp := 1

/-- An oscillator after reset (10_state.md R63). -/
def Lfo.reset : Lfo where
  freq := 0x00000000
  phase := 0x00000000
  wave := 0

/-- A delay line after reset or a successful PREPARE (10_state.md R63, 20_memory.md R72). -/
def DelayLine.reset : DelayLine where
  w := 0
  apz := { t0 := 0, t1 := 0, t2 := 0 }

/-- Nothing presented, nothing in progress, `rst` low (log 2, 3, 10, 11). -/
def Ports.idle : Ports where
  aCmds := []
  cCmds := []
  port := .a
  turn := .a
  stream := .idle
  si := []
  soRoom := 0
  rst := false

/-- Empty histories (10_state.md R63). -/
def Events.empty : Events where
  rsps := []
  notify := []
  fwd := []
  so := []

/-- The machine of configuration `cfg` right after reset (10_state.md R63). -/
def State.resetWith (cfg : Config) : State where
  cfg := cfg
  d := Vector.replicate 8 0
  csr := Csrs.reset
  cur := Vector.ofFn fun p => (cfg.param (BitVec.ofFin p)).dflt
  lfos := Vector.replicate 16 Lfo.reset
  dls := Vector.replicate 16 DelayLine.reset
  mem := []
  ports := Ports.idle
  events := Events.empty
  draws := 0
  unspecs := 0
  grants := 0

/-- The machine of the reference configuration right after reset (10_state.md R63, 00_scope.md R6). -/
def State.reset : State := State.resetWith Config.reference

end Sys2Proof.Machine
end

