-- ==== Sys2Proof/Machine/Flags.lean ====
section
/-! DEFINITION. The flags of the machine: the three bits of STATUS (10_state.md R33, R36) and the policy bit of CTRL (R37).
There are no condition codes and no arithmetic flags. -/

namespace Sys2Proof.Machine

/-- `STATUS.PREPARED`. -/
def prepared (s : State) : Bool := s.csr.status.getLsbD 0

/-- `STATUS.ILL`. -/
def illegalSeen (s : State) : Bool := s.csr.status.getLsbD 1

/-- `STATUS.PERR`. -/
def prepareError (s : State) : Bool := s.csr.status.getLsbD 2

/-- `CTRL.RPOP`: a successful PREPARE clears every phase. -/
def resetsPhase (s : State) : Bool := s.csr.ctrl.getLsbD 0

/-- STATUS after a suppressed command: `ILL <- 1` (60_exceptions.md R292). -/
def statusSuppressed (st : Word) : Word := st ||| 0x00000002

/-- STATUS after a successful PREPARE: `PREPARED <- 1; PERR <- 0` (40_system_datapath.md R132). -/
def statusPrepared (st : Word) : Word := (st ||| 0x00000001) &&& 0xFFFFFFFB

/-- STATUS after a rejected PREPARE: `PREPARED <- 0; PERR <- 1` (40_system_datapath.md R133). -/
def statusRejected (st : Word) : Word := (st &&& 0xFFFFFFFE) ||| 0x00000004

/-- STATUS after RELEASE: `PREPARED <- 0` (40_system_datapath.md R134). -/
def statusReleased (st : Word) : Word := st &&& 0xFFFFFFFE

/-- The state with another STATUS word. -/
def setStatus (st : Word) (s : State) : State := { s with csr := { s.csr with status := st } }

end Sys2Proof.Machine
end

