-- ==== Sys2Proof/Machine/Operands.lean ====
section
/-! DEFINITION. The operand forms: data registers, control registers, parameters, oscillators, delay-line bookkeeping; and
the test of a command's legality that depends on the port and the state (30_encoding.md R110 (c) to (f)). -/

namespace Sys2Proof.Machine

/-! ## Data registers (10_state.md R31) -/

/-- `D[r]`. -/
def reg (s : State) (r : Reg) : Word := s.d[r.toNat]'(r.isLt)

/-- `D[r] <- v`. -/
def setReg (r : Reg) (v : Word) (s : State) : State := { s with d := s.d.set r.toNat v r.isLt }

/-! ## Parameters (10_state.md R50) -/

/-- `P[p].CUR`. -/
def param (s : State) (p : ParamIdx) : Word := s.cur[p.toNat]'(p.isLt)

/-- `P[p].CUR <- v`. -/
def setParam (p : ParamIdx) (v : Word) (s : State) : State := { s with cur := s.cur.set p.toNat v p.isLt }

/-- `P[p].MIN`. -/
def paramMin (s : State) (p : ParamIdx) : Word := (s.cfg.param p).min

/-- `P[p].MAX`. -/
def paramMax (s : State) (p : ParamIdx) : Word := (s.cfg.param p).max

/-- `P[p].DEF`. -/
def paramDef (s : State) (p : ParamIdx) : Word := (s.cfg.param p).dflt

/-! ## Oscillators (10_state.md R52) -/

/-- `LFO[l]`. -/
def lfo (s : State) (l : Chan) : Lfo := s.lfos[l.toNat]'(l.isLt)

/-- `LFO[l] <- o`. -/
def setLfo (l : Chan) (o : Lfo) (s : State) : State := { s with lfos := s.lfos.set l.toNat o l.isLt }

/-! ## Delay-line bookkeeping (10_state.md R54, R56) -/

/-- `DL[c]`: write index and all-pass state. -/
def dline (s : State) (c : Chan) : DelayLine := s.dls[c.toNat]'(c.isLt)

/-- `DL[c] <- x`. -/
def setDline (c : Chan) (x : DelayLine) (s : State) : State := { s with dls := s.dls.set c.toNat x c.isLt }

/-- The state word of a slot. -/
def apzGet (z : Apz) : Slot → Word
  | .t0 => z.t0
  | .t1 => z.t1
  | .t2 => z.t2

/-- The all-pass state with one slot written. -/
def apzSet (z : Apz) (t : Slot) (v : Word) : Apz :=
  match t with
  | .t0 => { z with t0 := v }
  | .t1 => { z with t1 := v }
  | .t2 => { z with t2 := v }

/-- `DL[c].APZ[t]`. -/
def apz (s : State) (c : Chan) (t : Slot) : Word := apzGet (dline s c).apz t

/-- `DL[c].APZ[t] <- v`. -/
def setApz (c : Chan) (t : Slot) (v : Word) (s : State) : State :=
  setDline c { dline s c with apz := apzSet (dline s c).apz t v } s

/-- `CSR[CAP]` as an integer. -/
def cap (s : State) : Nat := s.csr.cap.toNat

/-- `DL[c].W <- (DL[c].W + 1) mod CSR[CAP]` (43_delay_line.md R201). -/
def advance (c : Chan) (s : State) : State :=
  setDline c { dline s c with w := ((dline s c).w + 1) % cap s } s

/-! ## Control and status registers (10_state.md R35) -/

/-- `CSR[r]`; a view shows the state it names (R44). -/
def csrValue (s : State) : Csr → Word
  | .status => s.csr.status
  | .ctrl => s.csr.ctrl
  | .sr => s.csr.sr
  | .blk => s.csr.blk
  | .nch => s.csr.nch
  | .cap => s.csr.cap
  | .nparam => BitVec.ofNat 32 s.cfg.nParam
  | .mode => s.csr.mode
  | .kdrive => s.csr.kdrive
  | .kcubic => s.csr.kcubic
  | .kloth => s.csr.kloth
  | .khith => s.csr.khith
  | .kbits => s.csr.kbits
  | .kpdrop => s.csr.kpdrop
  | .kdgain => s.csr.kdgain
  | .kfold => s.csr.kfold
  | .kgain => s.csr.kgain
  | .kdepth => s.csr.kdepth
  | .kmix => s.csr.kmix
  | .kfb => s.csr.kfb
  | .kdelay => s.csr.kdelay
  | .kntap => s.csr.kntap
  | .kinterp => s.csr.kinterp
  | .lfreq l => (lfo s l).freq
  | .lphase l => (lfo s l).phase
  | .lwave l => (lfo s l).wave.zeroExtend 32
  | .widx c => BitVec.ofNat 32 (dline s c).w

/-- The value a CSRW of `v` stores: `legal(csr, v)` for a WARL register, v itself for any other
(40_system_datapath.md R138). -/
def csrLegal (r : Csr) (v : Word) : Word :=
  match r with
  | .ctrl => v &&& 0x00000001
  | .kbits => clampu v 1 32
  | .kntap => clampu v 1 3
  | .kinterp => v &&& 0x00000003
  | _ => v

/-- The registers with `v` stored in `r`; a read-only register has no store. -/
def csrStore (x : Csrs) (r : Csr) (v : Word) : Csrs :=
  match r with
  | .ctrl => { x with ctrl := v }
  | .mode => { x with mode := v }
  | .kdrive => { x with kdrive := v }
  | .kcubic => { x with kcubic := v }
  | .kloth => { x with kloth := v }
  | .khith => { x with khith := v }
  | .kbits => { x with kbits := v }
  | .kpdrop => { x with kpdrop := v }
  | .kdgain => { x with kdgain := v }
  | .kfold => { x with kfold := v }
  | .kgain => { x with kgain := v }
  | .kdepth => { x with kdepth := v }
  | .kmix => { x with kmix := v }
  | .kfb => { x with kfb := v }
  | .kdelay => { x with kdelay := v }
  | .kntap => { x with kntap := v }
  | .kinterp => { x with kinterp := v }
  | .status | .sr | .blk | .nch | .cap | .nparam => x
  | .lfreq _ | .lphase _ | .lwave _ | .widx _ => x

/-- `CSR[r] <- v` as CSRW does it. -/
def csrWrite (r : Csr) (v : Word) (s : State) : State := { s with csr := csrStore s.csr r (csrLegal r v) }

/-- The interpolation mode of the kernels, `CSR[KINTERP]`. -/
def kernelInterp (s : State) : Interp := interpOf (s.csr.kinterp.extractLsb' 0 2)

/-! ## Legality (30_encoding.md R110 (c) to (f)) -/

/-- Case (c): the port accepts the command, and a C-port parameter read has `rd` = 0 (60_exceptions.md R299). -/
def portAccepts (i : Instr) (p : Port) : Bool :=
  i.op.onPort p &&
    match p, i with
    | .c, .getp rd _ => rd == 0
    | .c, .pmin rd _ => rd == 0
    | .c, .pmax rd _ => rd == 0
    | .c, .pdef rd _ => rd == 0
    | _, _ => true

/-- The channel a delay-line command names (30_encoding.md R110 (e)). -/
def delayChannel : Instr → Option Chan
  | .dlw c _ => some c
  | .dladv c => some c
  | .push c _ => some c
  | .pop _ _ c _ _ => some c
  | .dlfb c _ _ _ => some c
  | .dly _ _ c => some c
  | .chor _ _ _ c => some c
  | _ => none

/-- `c < CSR[NCH]` for the channel of a delay-line command (60_exceptions.md R294). -/
def channelInUse (s : State) (i : Instr) : Bool :=
  match delayChannel i with
  | some c => c.toNat < s.csr.nch.toNat
  | none => true

/-- The first of the cases (c) to (f) that makes the command illegal, `none` for a legal command. -/
def illegality (i : Instr) (s : State) : Option Suppression :=
  if !portAccepts i s.ports.port then some .port
  else if !i.wf s.cfg then some .field
  else if !channelInUse s i then some .channel
  else if i.op.needsPrepared && !prepared s then some .notPrepared
  else none

end Sys2Proof.Machine
end

