-- ==== Sys2Proof/Machine/Transcendental.lean ====
section
/-! DEFINITION. `fsin`, `fatan` and the waveform functions (00_scope.md R22, 42_oscillator.md R187, log 7).

Each is either an arbitrary function kept within the properties the spec names, or the correctly rounded reference
instance. Keeping a function within its properties changes no function that has them, so the `any` instance ranges over
every function the spec admits. -/

namespace Sys2Proof.Machine

/-! ## The reference instance: fixed point with 400 fraction bits (log 7) -/

/-- π in units of 2^-400, rounded down. -/
def piFix : Nat :=
  0x3243f6a8885a308d313198a2e03707344a4093822299f31d0082efa98ec4e6c89452821e638d01377be5466cf34e90c6cc0ac

/-- The product of two fixed-point numbers. -/
def mulFix (x y : Nat) : Nat := x * y / 2 ^ 400

/-- The alternating Taylor series of the sine in x, from a term t = x^(2k-1)/(2k-1)! on: `x2` is x². -/
def sinSeries (x2 : Nat) : Nat → Nat → Nat → Int
  | 0, _, _ => 0
  | fuel + 1, k, t => (t : Int) - sinSeries x2 fuel (k + 1) (mulFix t x2 / ((2 * k) * (2 * k + 1)))

/-- The sine of a fixed-point x in [0, π/2], as a magnitude. -/
def sinQuarter (x : Nat) : Nat := (sinSeries (mulFix x x) 60 1 x).toNat

/-- The sine of a fixed-point x in [0, π). -/
def sinHalf (x : Nat) : Nat := sinQuarter (if piFix < 2 * x then piFix - x else x)

/-- The correctly rounded sine of a finite operand: the operand is reduced modulo 2π in fixed point, where it is exact
(2^-149 is a multiple of 2^-400), and the series value is rounded once. A zero result has the sign of the operand, so
`fsin(-0.0)` is -0.0, whose sign 00_scope.md R22 leaves open (DESIGN CHOICE, log 17). -/
def sinReference (a : Word) : Word :=
  let x := f32Mag a * 2 ^ 251 % (2 * piFix)
  if x < piFix then fround (f32Neg a) (sinHalf x) (2 ^ 251)
  else fround (!f32Neg a) (sinHalf (x - piFix)) (2 ^ 251)

/-- Euler's series of the arctangent, Σ t_n with t_{n+1} = t_n · (2n+2)/(2n+3) · z and z = x²/(1+x²) ≤ 1/2. -/
def atanSeries (z : Nat) : Nat → Nat → Nat → Nat
  | 0, _, _ => 0
  | fuel + 1, n, t => t + atanSeries z fuel (n + 1) (mulFix t z * (2 * n + 2) / (2 * n + 3))

/-- The arctangent of a fixed-point x in [0, 1]. -/
def atanUnit (x : Nat) : Nat :=
  let one := 2 ^ 400
  let x2 := mulFix x x
  atanSeries (x2 * one / (one + x2)) 400 0 (x * one / (one + x2))

/-- The correctly rounded arctangent of a finite positive operand, as bits 30:0: above 1 through π/2 - atan(1/x). -/
def atanReferenceBits (a : Word) : Nat :=
  let x := f32Mag a * 2 ^ 251
  if x ≤ 2 ^ 400 then roundMag (atanUnit x) (2 ^ 251)
  else roundMag (piFix / 2 - atanUnit (2 ^ 800 / x)) (2 ^ 251)

/-! ## Within the properties of R22 -/

/-- A word kept in [-1, 1]; a NaN gives +0.0. -/
def unitRange (y : Word) : Word := if isNaN y then fZero else clampf y (fneg fOne) fOne

/-- `fsin`: (P-sin-1) to (P-sin-3) hold by construction. -/
def fsin (cfg : Config) (a : Word) : Word :=
  if !isFinite a then qNaN
  else if a = fZero then fZero
  else match cfg.num with
    | .any => unitRange (Config.sinValue a)
    | .correctlyRounded => unitRange (sinReference a)

/-- The largest of the magnitudes `Config.atanValue` gives up to the positive operand with bits `n`, at most the bound of
(P-atan-4): a non-decreasing sequence, and the sequence of `Config.atanValue` itself where that is one. -/
def atanEnvelope : Nat → Nat
  | 0 => 0
  | n + 1 => max (atanEnvelope n) (min ((Config.atanValue (BitVec.ofNat 32 (n + 1))).toNat % 2 ^ 31) halfPi.toNat)

/-- The arctangent of an operand above +0.0, as a word: a zero result keeps the sign `Config.atanValue` gives it. -/
def atanPositive (cfg : Config) (a : Word) : Word :=
  if isInf a then halfPi
  else match cfg.num with
    | .any => f32Pack (atanEnvelope a.toNat == 0 && f32Neg (Config.atanValue a)) (atanEnvelope a.toNat)
    | .correctlyRounded => f32Pack false (min (atanReferenceBits a) halfPi.toNat)

/-- `fatan`: a NaN gives the canonical NaN, a zero itself, and the function is odd: (P-atan-1) to (P-atan-5). -/
def fatan (cfg : Config) (a : Word) : Word :=
  if isNaN a then qNaN
  else if isZero a then a
  else if f32Neg a then fneg (atanPositive cfg (fneg a))
  else atanPositive cfg a

/-- The word a waveform gives for a finite operand, before it is kept in range. -/
def waveformWord : Waveform → Word → Word
  | .any k, a => Config.waveValue k a
  | .table points, a => (points.lookup a).getD fZero

/-- `WAVEFN[w]` (42_oscillator.md R187): `fsin` for w = 0; otherwise the configuration's function, with a result in [-1, 1]
on [0, TWO_PI) and the canonical NaN of an operand that is not finite. -/
def waveFn (cfg : Config) (w : BitVec 2) (a : Word) : Word :=
  if w = 0 then fsin cfg a
  else if !isFinite a then qNaN
  else if fle fZero a && flt a twoPi then unitRange (waveformWord (cfg.waveform w) a)
  else waveformWord (cfg.waveform w) a

/-- `draw()` number `n` (10_state.md R59): an arbitrary f32 `u` with 0 ≤ u < 1. -/
def drawAt (n : Nat) : Word :=
  if fle fZero (Config.drawValue n) && flt (Config.drawValue n) fOne then Config.drawValue n else fZero

end Sys2Proof.Machine
end

