-- ==== Sys2Proof/Machine/Ops.lean ====
section
/-! DEFINITION. The shared operations: the sample memory, responses and events, suppression, free values, and the
accept-or-suppress frame every command runs in.

PBP-CORE takes no exceptions and has no return from one (60_exceptions.md R290, R298); suppression (R292) stands where
another machine takes an exception, and it is one operation here. -/

namespace Sys2Proof.Machine

/-! ## The sample memory (20_memory.md R70 to R73) -/

/-- The byte at an address; zero where none is listed (log 8). -/
def readByte (m : Memory) (a : Nat) : Byte :=
  match m with
  | [] => 0
  | (b, v) :: rest => if b = a then v else readByte rest a

/-- The memory with one byte written, in canonical form. -/
def writeByte (m : Memory) (a : Nat) (v : Byte) : Memory :=
  match m with
  | [] => if v = 0 then [] else [(a, v)]
  | (b, w) :: rest =>
    if a < b then (if v = 0 then (b, w) :: rest else (a, v) :: (b, w) :: rest)
    else if a = b then (if v = 0 then rest else (a, v) :: rest)
    else (b, w) :: writeByte rest a v

/-- The canonical form: addresses strictly rising, no zero byte listed. -/
abbrev memoryWf (m : Memory) : Prop := m.Pairwise (fun x y => x.1 < y.1) ∧ ∀ x ∈ m, x.2 ≠ 0

/-- The address of the first byte of `dl(c, i)` (log 8): every pair (c, i) has four bytes of its own. -/
def dlAddr (c : Chan) (i : Nat) : Nat := 4 * (16 * i + c.toNat)

/-- The word whose first byte is at `a`. -/
def readWord (m : Memory) (a : Nat) : Word :=
  readByte m (a + 3) ++ readByte m (a + 2) ++ readByte m (a + 1) ++ readByte m a

/-- The memory with a word written at `a`. -/
def writeWord (m : Memory) (a : Nat) (v : Word) : Memory :=
  writeByte (writeByte (writeByte (writeByte m a (v.extractLsb' 0 8))
    (a + 1) (v.extractLsb' 8 8)) (a + 2) (v.extractLsb' 16 8)) (a + 3) (v.extractLsb' 24 8)

/-- `MemRead(dl(c, i), 4)`. -/
def sample (s : State) (c : Chan) (i : Nat) : Word := readWord s.mem (dlAddr c i)

/-- The address DLW, PUSH, DLFB, DLY and CHOR store to: `dl(c, DL[c].W)` (20_memory.md R71). -/
def storeAddr (s : State) (c : Chan) : Nat := dlAddr c (dline s c).w

/-- `MemWrite(dl(c, DL[c].W), 4, v)`. -/
def storeSample (c : Chan) (v : Word) (s : State) : State :=
  { s with mem := writeWord s.mem (storeAddr s c) v }

/-- The byte address belongs to a word (c, i) with c < nch and i < n. -/
def inUse (nch n a : Nat) : Bool := a / 4 % 16 < nch && a / 64 < n

/-- The memory with +0.0 in every `dl(c, i)`, c < nch and i < n: those bytes are no longer listed (20_memory.md R72). -/
def zeroFill (nch n : Nat) (m : Memory) : Memory := m.filter fun x => !inUse nch n x.1

/-! ## Responses and events (30_encoding.md R113, 10_state.md R60) -/

/-- `rsp <- v` on the port whose command executes. -/
def respond (v : Word) (s : State) : State :=
  { s with events := { s.events with rsps := s.events.rsps ++ [{ port := s.ports.port, word := v }] } }

/-- `emit NOTIFY(p, v)`. -/
def emitNotify (p : ParamIdx) (v : Word) (s : State) : State :=
  { s with events := { s.events with notify := s.events.notify ++ [{ p := p, v := v }] } }

/-- `emit FWD(k, v)`: the event carries the three bits of `fwd_k` (30_encoding.md R102), all there are in a legal role
number. -/
def emitFwd (k : Chan) (v : Word) (s : State) : State :=
  { s with events := { s.events with fwd := s.events.fwd ++ [{ k := k.setWidth 3, v := v }] } }

/-- `emit SO(byte, last)` for each of the bytes, in order. -/
def emitSo (bs : List StreamByte) (s : State) : State :=
  { s with events := { s.events with so := s.events.so ++ bs } }

/-- `D[rd] <- v; rsp <- v`. -/
def writeResult (rd : Reg) (v : Word) (s : State) : State := respond v (setReg rd v s)

/-! ## Suppression (60_exceptions.md R292) -/

/-- What a suppressed command does: `CSR[STATUS].ILL <- 1; rsp <- 0`, and nothing else. -/
def suppress (s : State) : State := respond 0 (setStatus (statusSuppressed s.csr.status) s)

/-- A command: suppressed where it is illegal, its effect otherwise (40_system_datapath.md R131). -/
def command (i : Instr) (s : State) (effect : Host.Outcome State Fault Refusal) : Host.Outcome State Fault Refusal :=
  match illegality i s with
  | some _ => .next (suppress s)
  | none => effect

/-! ## Free values (log 5, 6) -/

/-- The next word the spec calls unspecified. -/
def unspecWord (s : State) : Word := Config.unspecifiedWord s.unspecs

/-- One unspecified word consumed. -/
def takeUnspec (s : State) : State := { s with unspecs := s.unspecs + 1 }

/-- The next draw (10_state.md R59). -/
def draw (s : State) : Word := drawAt s.draws

/-- `n` draws consumed. -/
def takeDraws (n : Nat) (s : State) : State := { s with draws := s.draws + n }

end Sys2Proof.Machine
end

