-- ==== Sys2Proof/Machine/Datapath.lean ====
section
/-! DEFINITION. Arithmetic commands: FADD, FSUB, FMUL, FDIV (40_system_datapath.md R140 to R143). -/

namespace Sys2Proof.Machine

/-- FADD (R140). -/
def execFadd (rd ra rb : Reg) (s : State) : Host.Outcome State Fault Refusal :=
  command (.fadd rd ra rb) s (.next (writeResult rd (fadd (reg s ra) (reg s rb)) s))

/-- FSUB (R141). -/
def execFsub (rd ra rb : Reg) (s : State) : Host.Outcome State Fault Refusal :=
  command (.fsub rd ra rb) s (.next (writeResult rd (fsub (reg s ra) (reg s rb)) s))

/-- FMUL (R142). -/
def execFmul (rd ra rb : Reg) (s : State) : Host.Outcome State Fault Refusal :=
  command (.fmul rd ra rb) s (.next (writeResult rd (fmul (reg s ra) (reg s rb)) s))

/-- FDIV (R143). -/
def execFdiv (rd ra rb : Reg) (s : State) : Host.Outcome State Fault Refusal :=
  command (.fdiv rd ra rb) s (.next (writeResult rd (fdiv (reg s ra) (reg s rb)) s))

end Sys2Proof.Machine
end

