-- ==== Sys2Proof/Machine/DelayLines.lean ====
section
/-! DEFINITION. The tap read and the delay-line commands: DLW, DLADV, PUSH, POP, DLFB (43_delay_line.md R201 to R214). -/

namespace Sys2Proof.Machine

/-! ## The tap read (R201, R205 to R211) -/

/-- `tap(c, i)`: the word i places behind the write index, mod CAP (R201, 00_scope.md R20). -/
def tapWord (s : State) (c : Chan) (i : Nat) : Word :=
  sample s c (((dline s c).w - i : Int) % (cap s : Int)).toNat

/-- `i = f2u(ffloor(d))`. -/
def delayIndex (d : Word) : Nat := f2u (ffloor d)

/-- `fr = fsub(d, ffloor(d))`. -/
def delayFrac (d : Word) : Word := fsub d (ffloor d)

/-- `fr = 0`: an integer delay. -/
def delayIntegral (d : Word) : Bool := feq (delayFrac d) fZero

/-- The preconditions (a), (b) and (c) of a tap read (R206). -/
def delayInRange (s : State) (d : Word) (mode : Interp) : Bool :=
  isFinite d && fle fZero d && flt d (u2f (cap s)) &&
    match mode with
    | .none => decide (f2u (frint d) < cap s)
    | .linear => delayIntegral d || decide (delayIndex d + 1 < cap s)
    | .allpass => delayIntegral d || decide (delayIndex d + 1 < cap s)
    | .cubic => delayIntegral d || (decide (1 ≤ delayIndex d) && decide (delayIndex d + 2 < cap s))

/-- LINEAR for a fractional delay (R209). -/
def tapLinear (s : State) (c : Chan) (i : Nat) (fr : Word) : Word :=
  fadd (fmul (tapWord s c i) (fsub fOne fr)) (fmul (tapWord s c (i + 1)) fr)

/-- ALLPASS for a fractional delay: the new state and result (R210). -/
def tapAllpass (s : State) (c : Chan) (t : Slot) (i : Nat) (fr : Word) : Word :=
  let eta := fdiv (fsub fOne fr) (fadd fOne fr)
  fadd (tapWord s c (i + 1)) (fmul eta (fsub (tapWord s c i) (apz s c t)))

/-- CUBIC for a fractional delay (R211). -/
def tapCubic (s : State) (c : Chan) (i : Nat) (fr : Word) : Word :=
  let a := fadd fr fOne
  let b := fsub fr fOne
  let g := fsub fr fTwo
  let cm := fneg (fdiv (fmul (fmul fr b) g) fSix)
  let c0 := fdiv (fmul (fmul a b) g) fTwo
  let c1 := fneg (fdiv (fmul (fmul a fr) g) fTwo)
  let c2 := fdiv (fmul (fmul a fr) b) fSix
  fadd (fadd (fadd (fmul cm (tapWord s c (i - 1))) (fmul c0 (tapWord s c i)))
    (fmul c1 (tapWord s c (i + 1)))) (fmul c2 (tapWord s c (i + 2)))

/-- The value of a tap read whose preconditions hold (R205). -/
def tapValue (s : State) (c : Chan) (d : Word) (mode : Interp) (t : Slot) : Word :=
  match mode with
  | .none => tapWord s c (f2u (frint d))
  | .linear => if delayIntegral d then tapWord s c (delayIndex d) else tapLinear s c (delayIndex d) (delayFrac d)
  | .allpass => if delayIntegral d then tapWord s c (delayIndex d) else tapAllpass s c t (delayIndex d) (delayFrac d)
  | .cubic => if delayIntegral d then tapWord s c (delayIndex d) else tapCubic s c (delayIndex d) (delayFrac d)

/-- The state after a tap read whose preconditions hold: ALLPASS leaves the value read in its slot (R205, R210). -/
def tapState (c : Chan) (d : Word) (mode : Interp) (t : Slot) (s : State) : State :=
  match mode with
  | .allpass => setApz c t (tapValue s c d .allpass t) s
  | _ => s

/-- The state after a tap read whose preconditions fail, as the hardware goes on (R207): the value read is an unspecified
word, and in mode ALLPASS another one is left in the slot. -/
def tapUnspecState (c : Chan) (mode : Interp) (t : Slot) (s : State) : State :=
  match mode with
  | .allpass => setApz c t (unspecWord (takeUnspec s)) (takeUnspec (takeUnspec s))
  | _ => takeUnspec s

/-- `TapRead(c, d, mode, t)` (R205): the value and the state it leaves, or the model fault of R207 where the
configuration asks for it (log 4). -/
def tapRead (c : Chan) (d : Word) (mode : Interp) (t : Slot) (s : State) : Except Fault (Word × State) :=
  if delayInRange s d mode then .ok (tapValue s c d mode t, tapState c d mode t s)
  else match s.cfg.openPoints with
    | .stop => .error .delayRange
    | .run => .ok (unspecWord s, tapUnspecState c mode t s)

/-! ## The commands -/

/-- DLW (R202). -/
def execDlw (c : Chan) (ra : Reg) (s : State) : Host.Outcome State Fault Refusal :=
  command (.dlw c ra) s (.next (respond 0 (storeSample c (reg s ra) s)))

/-- DLADV (R203). -/
def execDladv (c : Chan) (s : State) : Host.Outcome State Fault Refusal :=
  command (.dladv c) s (.next (respond 0 (advance c s)))

/-- PUSH (R204). -/
def execPush (c : Chan) (ra : Reg) (s : State) : Host.Outcome State Fault Refusal :=
  command (.push c ra) s (.next (respond 0 (advance c (storeSample c (reg s ra) s))))

/-- What POP does with its tap read. -/
def popEffect (rd : Reg) (r : Except Fault (Word × State)) : Host.Outcome State Fault Refusal :=
  match r with
  | .error f => .fault f
  | .ok (v, t) => .next (writeResult rd v t)

/-- POP (R213). -/
def execPop (rd ra : Reg) (c : Chan) (interp : Interp) (tap : BitVec 2) (s : State) :
    Host.Outcome State Fault Refusal :=
  command (.pop rd ra c interp tap) s (popEffect rd (tapRead c (reg s ra) interp (slotOf tap) s))

/-- DLFB (R214). -/
def execDlfb (c : Chan) (ra rb rc : Reg) (s : State) : Host.Outcome State Fault Refusal :=
  command (.dlfb c ra rb rc) s
    (.next (respond 0 (advance c (storeSample c (fadd (reg s ra) (fmul (reg s rc) (reg s rb))) s))))

end Sys2Proof.Machine
end

