-- ==== Sys2Proof/Machine/Waveshaper.lean ====
section
/-! DEFINITION. The transfer functions and the waveshaper commands: SHAPE, THR (44_waveshaper.md R230 to R245). -/

namespace Sys2Proof.Machine

/-! ## The seven transfer functions (R232 to R239) -/

/-- Mode 1, soft clip (arctan), drive k (R232). -/
def shapeAtan (cfg : Config) (k x : Word) : Word := fmul twoOverPi (fatan cfg (fmul k x))

/-- The boundary of the cubic's monotonic region, `fdiv(ONE, fsqrt(fmul(3.0, a)))` (R233). -/
def cubicLimit (a : Word) : Word := fdiv fOne (fsqrt (fmul fThree a))

/-- The input of the cubic: clamped to the monotonic region where a > 0 (R233). -/
def cubicInput (a x : Word) : Word :=
  if fgt a fZero then clampf x (fneg (cubicLimit a)) (cubicLimit a) else x

/-- Mode 2, soft clip (cubic), coefficient a (R233). -/
def shapeCubic (a x : Word) : Word :=
  let xc := cubicInput a x
  fsub xc (fmul a (fmul (fmul xc xc) xc))

/-- Mode 3, triangle fold, the source's formula as written (R234). -/
def shapeTriangle (x : Word) : Word := fsub (fabs (fmodt (fadd (fmul fTwo x) fTwo) fFour)) fOne

/-- A magnitude with the sign of x. -/
def withSignOf (x m : Word) : Word := if f32Neg x then fneg m else m

/-- The boundary a magnitude in the gap is moved to (R235). -/
def gapBoundary (clamp : GapClamp) (a lo hi : Word) : Word :=
  match clamp with
  | .low => lo
  | .nearer => if fle (fsub a lo) (fsub hi a) then lo else hi

/-- Mode 4, threshold gap, thresholds lo and hi (R235). -/
def shapeGap (clamp : GapClamp) (lo hi x : Word) : Word :=
  if flt (fabs x) lo then x
  else if fle (fabs x) hi then withSignOf x (gapBoundary clamp (fabs x) lo hi)
  else if fgt (fabs x) hi then withSignOf x (fsub (fabs x) (fsub hi lo))
  else qNaN

/-- Mode 5, bit crush, n = `CSR[KBITS]` (R236). -/
def shapeCrush (n : Nat) (x : Word) : Word := fdiv (fceil (fmul x (pow2 (n - 1)))) (pow2 (n - 1))

/-- Mode 6, stochastic dropout, probability p, gain g, draw u (R237). -/
def shapeDropout (p g u x : Word) : Word := if flt u p then fZero else fmul x g

/-- Mode 7, wavefold, threshold T: one reflection on each side (R238). -/
def shapeFold (T x : Word) : Word :=
  if fgt x T then fsub T (fsub x T)
  else if flt x (fneg T) then fsub (fneg T) (fadd x T)
  else x

/-- `Shape(m, x)` (R231): the transfer function of mode m with the coefficients of the state; an unknown mode passes the
word through (R239). -/
def shape (s : State) (m x : Word) : Word :=
  match m.toNat with
  | 1 => shapeAtan s.cfg s.csr.kdrive x
  | 2 => shapeCubic s.csr.kcubic x
  | 3 => shapeTriangle x
  | 4 => shapeGap s.cfg.gapClamp s.csr.kloth s.csr.khith x
  | 5 => shapeCrush s.csr.kbits.toNat x
  | 6 => shapeDropout s.csr.kpdrop s.csr.kdgain (draw s) x
  | 7 => shapeFold s.csr.kfold x
  | _ => x

/-- How many draws an evaluation of `Shape(m, x)` consumes: one in mode 6, whatever p is (R237). -/
def shapeDraws (m : Word) : Nat := if m.toNat = 6 then 1 else 0

/-- `CSR[MODE]` is the mode the configuration names as not designed, and the model is to stop there (R244, log 4). -/
def modeNotDesigned (s : State) : Bool :=
  s.cfg.unspecMode == some s.csr.mode.toNat && s.cfg.openPoints == .stop

/-- The transfer function applied to x, its result in `rd` (R230): the common part of SHAPE and DIST. -/
def shapeEffect (rd : Reg) (x : Word) (s : State) : Host.Outcome State Fault Refusal :=
  if modeNotDesigned s then .refused .unspecMode
  else .next (writeResult rd (shape s s.csr.mode x) (takeDraws (shapeDraws s.csr.mode) s))

/-- SHAPE (R230). -/
def execShape (rd ra : Reg) (s : State) : Host.Outcome State Fault Refusal :=
  command (.shape rd ra) s (shapeEffect rd (reg s ra) s)

/-! ## Derived thresholds (R245) -/

/-- `fdiv(base, u)` with u replaced by EPS_DIV where it is below it, zero, negative or a NaN. -/
def derivedThreshold (cfg : Config) (base u : Word) : Word :=
  fdiv base (if fge u cfg.epsDiv then u else cfg.epsDiv)

/-- The base constant of threshold `b`: 0 low, 1 high, 2 fold. -/
def thresholdBase (cfg : Config) (b : BitVec 2) : Word :=
  match b.toNat with
  | 0 => cfg.baseLow
  | 1 => cfg.baseHigh
  | _ => cfg.baseFold

/-- The register of threshold `b`. -/
def thresholdCsr (b : BitVec 2) : Csr :=
  match b.toNat with
  | 0 => .kloth
  | 1 => .khith
  | _ => .kfold

/-- THR (R245). -/
def execThr (b : BitVec 2) (ra : Reg) (s : State) : Host.Outcome State Fault Refusal :=
  command (.thr b ra) s
    (.next (respond 0 (csrWrite (thresholdCsr b) (derivedThreshold s.cfg (thresholdBase s.cfg b) (reg s ra)) s)))

end Sys2Proof.Machine
end

