-- ==== Sys2Proof/Machine/EffectKernels.lean ====
section
/-! DEFINITION. The effect kernels: TREM, DLY, CHOR, DIST (45_effect_kernels.md R260 to R268). -/

namespace Sys2Proof.Machine

/-- `Mix(dry, wet)`: the mix law, then the gain (R261). -/
def mix (s : State) (dry wet : Word) : Word :=
  fmul (fadd (fmul dry (fsub fOne s.csr.kmix)) (fmul wet s.csr.kmix)) s.csr.kgain

/-! ## Tremolo (R263) -/

/-- The envelope `depth·LFO + (1 - depth)`. -/
def tremEnvelope (s : State) (l : Word) : Word := fadd (fmul s.csr.kdepth l) (fsub fOne s.csr.kdepth)

/-- The output of the tremolo. -/
def tremValue (s : State) (x l : Word) : Word := fmul (fmul x (tremEnvelope s l)) s.csr.kgain

/-- TREM (R263). -/
def execTrem (rd ra rb : Reg) (s : State) : Host.Outcome State Fault Refusal :=
  command (.trem rd ra rb) s (.next (writeResult rd (tremValue s (reg s ra) (reg s rb)) s))

/-! ## Delay (R264) -/

/-- Steps (3) to (5) of DLY after its tap read: scale by the feedback, write back, advance, mix (R260, R264). -/
def dlyFinish (rd : Reg) (c : Chan) (dry t : Word) (s : State) : State :=
  let wet := fmul s.csr.kfb t
  writeResult rd (mix s dry wet) (advance c (storeSample c (fadd dry wet) s))

/-- The delay kernel on a dry sample: write it, read the tap, finish (R264). -/
def dlyEffect (rd : Reg) (c : Chan) (dry : Word) (s : State) : Host.Outcome State Fault Refusal :=
  match tapRead c s.csr.kdelay (kernelInterp s) .t0 (storeSample c dry s) with
  | .error f => .fault f
  | .ok (t, u) => .next (dlyFinish rd c dry t u)

/-- DLY (R264). -/
def execDly (rd ra : Reg) (c : Chan) (s : State) : Host.Outcome State Fault Refusal :=
  command (.dly rd ra c) s (dlyEffect rd c (reg s ra) s)

/-! ## Chorus (R266) -/

/-- The tap count n. -/
def chorTaps (s : State) : Nat := s.csr.kntap.toNat

/-- `g = fadd(ONE, fmul(l, fdiv(CSR[KDEPTH], u2f(n))))`. -/
def chorFactor (s : State) (l : Word) : Word := fadd fOne (fmul l (fdiv s.csr.kdepth (u2f (chorTaps s))))

/-- `d[j] = fmul(fdiv(CSR[KDELAY], u2f(j)), g)`. -/
def chorDelay (s : State) (l : Word) (j : Nat) : Word := fmul (fdiv s.csr.kdelay (u2f j)) (chorFactor s l)

/-- Tap j of the chorus, in state slot j - 1. -/
def chorTap (c : Chan) (l : Word) (j : Nat) (t : Slot) (s : State) : Except Fault (Word × State) :=
  tapRead c (chorDelay s l j) (kernelInterp s) t s

/-- The sum of the n taps, added in order, and the state their reads leave. -/
def chorSum (c : Chan) (l : Word) (s : State) : Except Fault (Word × State) :=
  match chorTap c l 1 .t0 s with
  | .error f => .error f
  | .ok (x1, s1) =>
    if chorTaps s < 2 then .ok (x1, s1)
    else match chorTap c l 2 .t1 s1 with
      | .error f => .error f
      | .ok (x2, s2) =>
        if chorTaps s ≠ 3 then .ok (fadd x1 x2, s2)
        else match chorTap c l 3 .t2 s2 with
          | .error f => .error f
          | .ok (x3, s3) => .ok (fadd (fadd x1 x2) x3, s3)

/-- Steps (4) and (5) of CHOR after its tap reads: equal weights, advance, mix; no write-back. -/
def chorFinish (rd : Reg) (c : Chan) (dry sum : Word) (s : State) : State :=
  writeResult rd (mix s dry (fdiv sum (u2f (chorTaps s)))) (advance c s)

/-- The chorus kernel on a dry sample and an LFO value (R266). -/
def chorEffect (rd : Reg) (c : Chan) (dry l : Word) (s : State) : Host.Outcome State Fault Refusal :=
  match chorSum c l (storeSample c dry s) with
  | .error f => .fault f
  | .ok (sum, u) => .next (chorFinish rd c dry sum u)

/-- CHOR (R266). -/
def execChor (rd ra rb : Reg) (c : Chan) (s : State) : Host.Outcome State Fault Refusal :=
  command (.chor rd ra rb c) s (chorEffect rd c (reg s ra) (reg s rb) s)

/-! ## Distortion (R268) -/

/-- DIST (R268): the gain comes before the shaper. -/
def execDist (rd ra : Reg) (s : State) : Host.Outcome State Fault Refusal :=
  command (.dist rd ra) s (shapeEffect rd (fmul (reg s ra) s.csr.kgain) s)

end Sys2Proof.Machine
end

