-- ==== Sys2Proof/Machine/Oscillator.lean ====
section
/-! DEFINITION. Oscillator commands: SETF, LRST, LNEXT, SETW (42_oscillator.md R181 to R187). -/

namespace Sys2Proof.Machine

/-- The frequency SETF stores for `v` over an old frequency: a NaN is discarded, anything not above zero gives +0.0,
+inf gives FLT_MAX (R181). -/
def frequencyFor (old v : Word) : Word :=
  if isNaN v then old
  else if fle v fZero then fZero
  else if v = fInf then fltMax
  else v

/-- SETF (R181). -/
def execSetf (l : Chan) (ra : Reg) (s : State) : Host.Outcome State Fault Refusal :=
  command (.setf l ra) s
    (.next (respond 0 (setLfo l { lfo s l with freq := frequencyFor (lfo s l).freq (reg s ra) } s)))

/-- LRST (R182). -/
def execLrst (l : Chan) (s : State) : Host.Outcome State Fault Refusal :=
  command (.lrst l) s (.next (respond 0 (setLfo l { lfo s l with phase := fZero } s)))

/-- `inc = fdiv(fmul(TWO_PI, FREQ), SR)` (R185). -/
def phaseIncrement (s : State) (l : Chan) : Word := fdiv (fmul twoPi (lfo s l).freq) s.csr.sr

/-- `ph = fadd(PHASE, inc)`, before the wrap (R184). -/
def advancedPhase (s : State) (l : Chan) : Word := fadd (lfo s l).phase (phaseIncrement s l)

/-- `ph' = fmodt(ph, TWO_PI)` (R184). -/
def wrappedPhase (s : State) (l : Chan) : Word := fmodt (advancedPhase s l) twoPi

/-- The output `WAVEFN[WAVE](ph')` (R184, R187). -/
def lfoOutput (s : State) (l : Chan) : Word := waveFn s.cfg (lfo s l).wave (wrappedPhase s l)

/-- The state LNEXT leaves: advance, wrap, evaluate at the new phase (R184). A phase that is not finite becomes the
canonical NaN here, as the hardware does (R186). -/
def lnextEffect (rd : Reg) (l : Chan) (s : State) : State :=
  writeResult rd (lfoOutput s l) (setLfo l { lfo s l with phase := wrappedPhase s l } s)

/-- LNEXT (R184), with the model fault of R186 where the configuration asks for it (log 4). -/
def execLnext (rd : Reg) (l : Chan) (s : State) : Host.Outcome State Fault Refusal :=
  command (.lnext rd l) s
    (if !isFinite (advancedPhase s l) && s.cfg.openPoints == .stop then .fault .nonfinitePhase
     else .next (lnextEffect rd l s))

/-- SETW (R183). -/
def execSetw (l : Chan) (w : BitVec 2) (s : State) : Host.Outcome State Fault Refusal :=
  command (.setw l w) s (.next (respond 0 (setLfo l { lfo s l with wave := w } s)))

end Sys2Proof.Machine
end

