-- ==== Sys2Proof/Machine/ParameterStore.lean ====
section
/-! DEFINITION. Parameter store commands: GETP, PMIN, PMAX, PDEF, SETP, FWD (41_parameter_store.md R161 to R168). -/

namespace Sys2Proof.Machine

/-- `if port = A then D[rd] <- v; rsp <- v`: the C-port writes no register (R161). -/
def paramResult (rd : Reg) (v : Word) (s : State) : State :=
  match s.ports.port with
  | .a => writeResult rd v s
  | .c => respond v s

/-- GETP (R161). -/
def execGetp (rd : Reg) (p : ParamIdx) (s : State) : Host.Outcome State Fault Refusal :=
  command (.getp rd p) s (.next (paramResult rd (param s p) s))

/-- PMIN (R162). -/
def execPmin (rd : Reg) (p : ParamIdx) (s : State) : Host.Outcome State Fault Refusal :=
  command (.pmin rd p) s (.next (paramResult rd (paramMin s p) s))

/-- PMAX (R163). -/
def execPmax (rd : Reg) (p : ParamIdx) (s : State) : Host.Outcome State Fault Refusal :=
  command (.pmax rd p) s (.next (paramResult rd (paramMax s p) s))

/-- PDEF (R164). -/
def execPdef (rd : Reg) (p : ParamIdx) (s : State) : Host.Outcome State Fault Refusal :=
  command (.pdef rd p) s (.next (paramResult rd (paramDef s p) s))

/-- `clampf(v, P[p].MIN, P[p].MAX)` (R165). -/
def clamped (s : State) (p : ParamIdx) (v : Word) : Word := clampf v (paramMin s p) (paramMax s p)

/-- The setter of SETP and DEC without the response: a NaN is discarded, any other value is clamped, stored and notified
(R165, R166, R167). -/
def setpEffect (p : ParamIdx) (v : Word) (s : State) : State :=
  if isNaN v then s else emitNotify p (clamped s p v) (setParam p (clamped s p v) s)

/-- SETP (R165): the response is the value of `P[p].CUR` after the command. -/
def execSetp (p : ParamIdx) (imm : Word) (s : State) : Host.Outcome State Fault Refusal :=
  command (.setp p imm) s (.next (respond (param (setpEffect p imm s) p) (setpEffect p imm s)))

/-- FWD (R168). -/
def execFwd (k : Chan) (p : ParamIdx) (s : State) : Host.Outcome State Fault Refusal :=
  command (.fwd k p) s (.next (respond 0 (emitFwd k (param s p) s)))

end Sys2Proof.Machine
end

