-- ==== Sys2Proof/Machine/StateCodec.lean ====
section
/-! DEFINITION. The state codec: ENC and DEC (46_state_codec.md R280 to R285), each a start and, where a stream is not
done, a continuation that later steps of the C-port run (log 10). -/

namespace Sys2Proof.Machine

/-! ## The image (20_memory.md R75, 46_state_codec.md R282) -/

/-- The four bytes of a word in the order of the image. -/
def bytesOfWord (e : Endian) (w : Word) : List Byte :=
  match e with
  | .le => [w.extractLsb' 0 8, w.extractLsb' 8 8, w.extractLsb' 16 8, w.extractLsb' 24 8]
  | .be => [w.extractLsb' 24 8, w.extractLsb' 16 8, w.extractLsb' 8 8, w.extractLsb' 0 8]

/-- The word of a group of four bytes in the order of the image. -/
def wordOfBytes (e : Endian) (b0 b1 b2 b3 : Byte) : Word :=
  match e with
  | .le => b3 ++ b2 ++ b1 ++ b0
  | .be => b0 ++ b1 ++ b2 ++ b3

/-- Bytes as stream events, the end mark on the last one only. -/
def markLast : List Byte → List StreamByte
  | [] => []
  | [b] => [{ byte := b, last := true }]
  | b :: rest => { byte := b, last := false } :: markLast rest

/-- The bytes of the current values of the parameters, in declaration order (R281). -/
def imageBytes (s : State) : List Byte :=
  (List.range s.cfg.nParam).flatMap fun p => bytesOfWord s.cfg.stateEndian (param s (BitVec.ofNat 5 p))

/-- The persisted-state image as ENC emits it (R281). -/
def image (s : State) : List StreamByte := markLast (imageBytes s)

/-! ## ENC (R281) -/

/-- The state with another transfer in progress. -/
def setStream (x : Stream) (s : State) : State := { s with ports := { s.ports with stream := x } }

/-- `n` bytes taken by the consumer of SO. -/
def takeRoom (n : Nat) (s : State) : State := { s with ports := { s.ports with soRoom := s.ports.soRoom - n } }

/-- ENC hands over what the consumer takes of the bytes it still has; when the last is taken it answers `4 * N_PARAM`
and the port is free again. -/
def encContinue (rest : List StreamByte) (s : State) : State :=
  if rest.length ≤ s.ports.soRoom then
    respond (BitVec.ofNat 32 (4 * s.cfg.nParam)) (setStream .idle (takeRoom rest.length (emitSo rest s)))
  else
    setStream (.enc (rest.drop s.ports.soRoom))
      (takeRoom s.ports.soRoom (emitSo (rest.take s.ports.soRoom) s))

/-- ENC (R281): all values are read in this one step. -/
def execEnc (s : State) : Host.Outcome State Fault Refusal := command .enc s (.next (encContinue (image s) s))

/-! ## DEC (R283, R284) -/

/-- What one atomic step of DEC takes from SI. -/
structure DecStep where
  /-- The groups done afterwards. -/
  n : Nat
  /-- The bytes of the current group afterwards. -/
  pending : List Byte
  /-- The bytes SI still holds. -/
  rest : List StreamByte
  /-- The group completed: slot and word. -/
  group : Option (ParamIdx × Word)
  /-- The byte marked `last` was taken. -/
  done : Bool
deriving DecidableEq, Repr

/-- The bytes DEC takes in one step: up to the end of a group, the byte marked `last`, or the end of what SI delivers
(R283). Bytes after `N_PARAM` groups are discarded, and so is a trailing group of one to three bytes (R284). -/
def decScan (cfg : Config) (n : Nat) (pending : List Byte) : List StreamByte → DecStep
  | [] => { n := n, pending := pending, rest := [], group := none, done := false }
  | b :: rest =>
    if n < cfg.nParam then
      match pending with
      | [b0, b1, b2] =>
        { n := n + 1, pending := [], rest := rest
          group := some (BitVec.ofNat 5 n, wordOfBytes cfg.stateEndian b0 b1 b2 b.byte), done := b.last }
      | _ =>
        if b.last then { n := n, pending := [], rest := rest, group := none, done := true }
        else decScan cfg n (pending ++ [b.byte]) rest
    else if b.last then { n := n, pending := [], rest := rest, group := none, done := true }
    else decScan cfg n pending rest

/-- The setter's effect of a completed group: that of SETP (R283). -/
def applyGroup (g : Option (ParamIdx × Word)) (s : State) : State :=
  match g with
  | some (p, w) => setpEffect p w s
  | none => s

/-- The state with other bytes left on SI. -/
def setSi (bs : List StreamByte) (s : State) : State := { s with ports := { s.ports with si := bs } }

/-- One atomic step of DEC: the bytes of at most one group, the setter's effect of that group, and the response with the
number of groups when the byte marked `last` was taken. -/
def decContinue (n : Nat) (pending : List Byte) (s : State) : State :=
  let r := decScan s.cfg n pending s.ports.si
  let t := applyGroup r.group (setSi r.rest s)
  if r.done then respond (BitVec.ofNat 32 r.n) (setStream .idle t) else setStream (.dec r.n r.pending) t

/-- DEC (R283): it begins with no group done and takes its first step. -/
def execDec (s : State) : Host.Outcome State Fault Refusal := command .dec s (.next (decContinue 0 [] s))

end Sys2Proof.Machine
end

