-- ==== Sys2Proof/Machine/System.lean ====
section
/-! DEFINITION. System and data-movement commands: NOP, PREPARE, RELEASE, LDI, MOV, RDR, CSRR, CSRW
(40_system_datapath.md R130 to R139). -/

namespace Sys2Proof.Machine

/-- NOP (R130). -/
def execNop (s : State) : Host.Outcome State Fault Refusal := command .nop s (.next (respond 0 s))

/-! ## PREPARE (R132, R133) -/

/-- m of R132, the largest nominal delay in samples: +0.0 without a delay parameter, else
`fceil(fmul(P[pd].MAX, sr))`. -/
def nominalDelay (s : State) (sr : Word) (pd : ParamIdx) : Word :=
  if pd = 31 then fZero else fceil (fmul (paramMax s pd) sr)

/-- `cap = 2 * f2u(m) + CAP_MARGIN` (R132). -/
def capacityFor (s : State) (m : Word) : Nat := 2 * f2u m + s.cfg.capMargin

/-- The tests (a) to (e) of R133 that reject a PREPARE. -/
def prepareRejected (s : State) (sr blk : Word) (nch : Chan) (pd : ParamIdx) : Bool :=
  let m := nominalDelay s sr pd
  (isNaN sr || isInf sr || fle sr fZero)
    || blk == 0
    || (nch == 0 || decide (s.cfg.nCh < nch.toNat))
    || (pd != 31 && (isNaN m || flt m fZero || fgt m (u2f s.cfg.capMax)))
    || decide (s.cfg.capMax < capacityFor s m)

/-- The state a rejected PREPARE leaves, without the response (R133). -/
def prepareReject (s : State) : State := setStatus (statusRejected s.csr.status) s

/-- The oscillators after PREPARE: every phase +0.0 under `CTRL.RPOP` (R132). -/
def preparedLfos (s : State) : Vector Lfo 16 :=
  if resetsPhase s then s.lfos.map fun o => { o with phase := fZero } else s.lfos

/-- The state a successful PREPARE leaves, without the response (R132). -/
def prepareAccept (sr blk : Word) (nch : Chan) (n : Nat) (s : State) : State :=
  { s with
    csr := { s.csr with
      status := statusPrepared s.csr.status
      sr := sr
      blk := blk
      nch := nch.zeroExtend 32
      cap := BitVec.ofNat 32 n }
    lfos := preparedLfos s
    dls := Vector.replicate 16 DelayLine.reset
    mem := zeroFill nch.toNat n s.mem }

/-- The state PREPARE leaves; the response is the new STATUS (R132, R133). -/
def prepareEffect (sr blk : Word) (nch : Chan) (pd : ParamIdx) (s : State) : State :=
  let t :=
    if prepareRejected s sr blk nch pd then prepareReject s
    else prepareAccept sr blk nch (capacityFor s (nominalDelay s sr pd)) s
  respond t.csr.status t

/-- PREPARE (R132). -/
def execPrepare (ra rb : Reg) (nch : Chan) (pd : ParamIdx) (s : State) : Host.Outcome State Fault Refusal :=
  command (.prepare ra rb nch pd) s (.next (prepareEffect (reg s ra) (reg s rb) nch pd s))

/-- RELEASE (R134). -/
def execRelease (s : State) : Host.Outcome State Fault Refusal :=
  command .release s (.next (respond 0 (setStatus (statusReleased s.csr.status) s)))

/-! ## Data movement -/

/-- LDI (R135). -/
def execLdi (rd : Reg) (imm : Word) (s : State) : Host.Outcome State Fault Refusal :=
  command (.ldi rd imm) s (.next (writeResult rd imm s))

/-- MOV (R136). -/
def execMov (rd ra : Reg) (s : State) : Host.Outcome State Fault Refusal :=
  command (.mov rd ra) s (.next (writeResult rd (reg s ra) s))

/-- RDR (R139). -/
def execRdr (ra : Reg) (s : State) : Host.Outcome State Fault Refusal :=
  command (.rdr ra) s (.next (respond (reg s ra) s))

/-- The state CSRR leaves; an address outside the map never gets here (R137). -/
def csrrEffect (rd : Reg) (csr : CsrAddr) (s : State) : State :=
  match csrAt s.cfg csr with
  | some r => writeResult rd (csrValue s r) s
  | none => suppress s

/-- CSRR (R137). -/
def execCsrr (rd : Reg) (csr : CsrAddr) (s : State) : Host.Outcome State Fault Refusal :=
  command (.csrr rd csr) s (.next (csrrEffect rd csr s))

/-- The state CSRW leaves; an address outside the map or of a read-only register never gets here (R138). -/
def csrwEffect (csr : CsrAddr) (v : Word) (s : State) : State :=
  match csrAt s.cfg csr with
  | some r => respond 0 (csrWrite r v s)
  | none => suppress s

/-- CSRW (R138). -/
def execCsrw (csr : CsrAddr) (ra : Reg) (s : State) : Host.Outcome State Fault Refusal :=
  command (.csrw csr ra) s (.next (csrwEffect csr (reg s ra) s))

end Sys2Proof.Machine
end

