-- ==== Sys2Proof/Machine/Dispatch.lean ====
section
/-! DEFINITION. One arm per command: the meaning of a decoded command on the port the state names. -/

namespace Sys2Proof.Machine

def exec (i : Instr) (s : State) : Host.Outcome State Fault Refusal :=
  match i with
  | .nop => Sys2Proof.Machine.execNop s
  | .prepare ra rb nch pd => Sys2Proof.Machine.execPrepare ra rb nch pd s
  | .release => Sys2Proof.Machine.execRelease s
  | .ldi rd imm => Sys2Proof.Machine.execLdi rd imm s
  | .mov rd ra => Sys2Proof.Machine.execMov rd ra s
  | .rdr ra => Sys2Proof.Machine.execRdr ra s
  | .csrr rd csr => Sys2Proof.Machine.execCsrr rd csr s
  | .csrw csr ra => Sys2Proof.Machine.execCsrw csr ra s
  | .fadd rd ra rb => Sys2Proof.Machine.execFadd rd ra rb s
  | .fsub rd ra rb => Sys2Proof.Machine.execFsub rd ra rb s
  | .fmul rd ra rb => Sys2Proof.Machine.execFmul rd ra rb s
  | .fdiv rd ra rb => Sys2Proof.Machine.execFdiv rd ra rb s
  | .getp rd p => Sys2Proof.Machine.execGetp rd p s
  | .pmin rd p => Sys2Proof.Machine.execPmin rd p s
  | .pmax rd p => Sys2Proof.Machine.execPmax rd p s
  | .pdef rd p => Sys2Proof.Machine.execPdef rd p s
  | .setp p imm => Sys2Proof.Machine.execSetp p imm s
  | .enc => Sys2Proof.Machine.execEnc s
  | .dec => Sys2Proof.Machine.execDec s
  | .fwd k p => Sys2Proof.Machine.execFwd k p s
  | .setf l ra => Sys2Proof.Machine.execSetf l ra s
  | .lrst l => Sys2Proof.Machine.execLrst l s
  | .lnext rd l => Sys2Proof.Machine.execLnext rd l s
  | .setw l w => Sys2Proof.Machine.execSetw l w s
  | .dlw c ra => Sys2Proof.Machine.execDlw c ra s
  | .dladv c => Sys2Proof.Machine.execDladv c s
  | .push c ra => Sys2Proof.Machine.execPush c ra s
  | .pop rd ra c interp tap => Sys2Proof.Machine.execPop rd ra c interp tap s
  | .dlfb c ra rb rc => Sys2Proof.Machine.execDlfb c ra rb rc s
  | .shape rd ra => Sys2Proof.Machine.execShape rd ra s
  | .thr b ra => Sys2Proof.Machine.execThr b ra s
  | .trem rd ra rb => Sys2Proof.Machine.execTrem rd ra rb s
  | .dly rd ra c => Sys2Proof.Machine.execDly rd ra c s
  | .chor rd ra rb c => Sys2Proof.Machine.execChor rd ra rb c s
  | .dist rd ra => Sys2Proof.Machine.execDist rd ra s

end Sys2Proof.Machine
end

