-- ==== Sys2Proof/Machine/Fetch.lean ====
section
/-! DEFINITION. Which port moves next, the packet it takes, the continuation of a transfer, and the reset input
(20_memory.md R82, 30_encoding.md R101, 70_reset_and_hazards.md R320). -/

namespace Sys2Proof.Machine

/-- The A-port has a packet presented. -/
def aReady (s : State) : Bool := !s.ports.aCmds.isEmpty

/-- The C-port can move: an idle port with a packet, an ENC whose consumer takes a byte, a DEC with a byte to read
(R101, 46_state_codec.md R281, R283). -/
def cReady (s : State) : Bool :=
  match s.ports.stream with
  | .idle => !s.ports.cCmds.isEmpty
  | .enc _ => decide (0 < s.ports.soRoom)
  | .dec _ _ => !s.ports.si.isEmpty

/-- The port that moves next; where both can, the one whose turn it is (20_memory.md R82 (d), log 3). -/
def nextPort (s : State) : Option Port :=
  if aReady s && cReady s then some s.ports.turn
  else if aReady s then some .a
  else if cReady s then some .c
  else none

/-- The port `p` moves: its commands respond on it, and a contested turn is followed by an arbitrary one (log 3). -/
def grant (p : Port) (s : State) : State :=
  if aReady s && cReady s then
    { s with
      ports := { s.ports with port := p, turn := if Config.servesAFirst s.grants then .a else .c }
      grants := s.grants + 1 }
  else { s with ports := { s.ports with port := p } }

/-- What a step does. -/
inductive Action where
  /-- The reset input is high. -/
  | reset
  /-- No port can move: the machine is idle (60_exceptions.md R304). -/
  | idle
  /-- A port takes a packet. -/
  | command (pkt : Packet) (s : State)
  /-- The C-port goes on with an ENC. -/
  | encGoesOn (rest : List StreamByte) (s : State)
  /-- The C-port goes on with a DEC. -/
  | decGoesOn (n : Nat) (pending : List Byte) (s : State)
deriving DecidableEq, Repr

/-- The A-port takes its next packet. -/
def takeA (s : State) : Action :=
  match s.ports.aCmds with
  | [] => .idle
  | pkt :: rest => .command pkt { s with ports := { s.ports with aCmds := rest } }

/-- The C-port goes on with its transfer, or takes its next packet. -/
def takeC (s : State) : Action :=
  match s.ports.stream with
  | .enc rest => .encGoesOn rest s
  | .dec n pending => .decGoesOn n pending s
  | .idle =>
    match s.ports.cCmds with
    | [] => .idle
    | pkt :: rest => .command pkt { s with ports := { s.ports with cCmds := rest } }

/-- The action of the next step. -/
def nextAction (s : State) : Action :=
  if s.ports.rst then .reset
  else match nextPort s with
    | none => .idle
    | some .a => takeA (grant .a s)
    | some .c => takeC (grant .c s)

/-- The state after the reset input: that of 10_state.md R63, a transfer in progress abandoned without a response; what
the two agents present stays theirs, and the model's counters of free values go on (log 11). -/
def takeReset (s : State) : State :=
  { State.resetWith s.cfg with
    ports := { s.ports with stream := .idle, rst := false }
    draws := s.draws
    unspecs := s.unspecs
    grants := s.grants }

/-- The packet presented first on the port that accepts it, that port's turn, no transfer in progress, `rst` low. -/
def present (pkt : Packet) (s : State) : State :=
  match acceptingPort pkt with
  | .a => { s with ports := { s.ports with aCmds := pkt :: s.ports.aCmds, turn := .a, rst := false } }
  | .c => { s with ports := { s.ports with cCmds := pkt :: s.ports.cCmds, turn := .c, stream := .idle, rst := false } }

end Sys2Proof.Machine
end

