-- ==== Sys2Proof/Machine/Step.lean ====
section
/-! DEFINITION. One step of the total order of 20_memory.md R82. -/

namespace Sys2Proof.Machine

/-- One step: reset, or nothing, or one command of one port, or one step of a transfer the C-port has in progress. A
packet that decodes to no command is suppressed (30_encoding.md R110 (a), (b)). -/
def step (s : State) : Host.Outcome State Fault Refusal :=
  match nextAction s with
  | .reset => .next (takeReset s)
  | .idle => .next s
  | .command pkt t =>
    match decode pkt with
    | .ok i => exec i t
    | .error _ => .next (suppress t)
  | .encGoesOn rest t => .next (encContinue rest t)
  | .decGoesOn n pending t => .next (decContinue n pending t)

/-- The state whose next step takes the packet `w` gives in the table's numbering (log 2, 14): the packet is presented
first on the port that accepts its command. -/
def State.withFetchWord (s : State) (nbits w : Nat) : State := present (tablePacket nbits w) s

end Sys2Proof.Machine
end

