-- ==== Sys2Proof/Safety.lean ====
section
/-! DEFINITION. The terms statements are written in: the invariants the spec names, what a command may change, and the
observations of a run. Nothing here is part of the machine. -/

namespace Sys2Proof.Machine

/-! ## Invariants -/

/-- `P[p].CUR` is not a NaN and lies in `[P[p].MIN, P[p].MAX]` (10_state.md R51). -/
def ParamInRange (s : State) (p : ParamIdx) : Prop :=
  isNaN (param s p) = false ∧ fle (paramMin s p) (param s p) = true ∧ fle (param s p) (paramMax s p) = true

/-- The invariant of the parameter store (10_state.md R51). -/
def ParamsInRange (s : State) : Prop := ∀ p, paramExists s.cfg p = true → ParamInRange s p

/-- The registers with reserved bits or a legal range hold a legal value (10_state.md R36, R37, R41, R43). -/
def CsrsLegal (s : State) : Prop :=
  s.csr.status &&& 0xFFFFFFF8 = 0 ∧ s.csr.ctrl &&& 0xFFFFFFFE = 0 ∧
    (1 ≤ s.csr.kbits.toNat ∧ s.csr.kbits.toNat ≤ 32) ∧ (1 ≤ s.csr.kntap.toNat ∧ s.csr.kntap.toNat ≤ 3) ∧
    s.csr.kinterp.toNat ≤ 3

/-- What SR, BLK, NCH, CAP satisfy while `STATUS.PREPARED` is 1 (10_state.md R38), and `W < CAP` (R54). -/
def PreparedLegal (s : State) : Prop :=
  prepared s = true →
    (isFinite s.csr.sr = true ∧ fgt s.csr.sr fZero = true) ∧
      (1 ≤ s.csr.nch.toNat ∧ s.csr.nch.toNat ≤ s.cfg.nCh) ∧ 1 ≤ s.csr.blk.toNat ∧
      (s.cfg.capMargin ≤ cap s ∧ cap s ≤ s.cfg.capMax) ∧ ∀ c : Chan, c.toNat < s.cfg.nCh → (dline s c).w < cap s

/-- The frequency is finite, not negative and not a NaN, and the waveform exists (10_state.md R53). -/
def OscillatorsLegal (s : State) : Prop :=
  ∀ l, lfoExists s.cfg l = true →
    isFinite (lfo s l).freq = true ∧ f32Neg (lfo s l).freq = false ∧ (lfo s l).wave.toNat < s.cfg.nWave

/-- Every phase is finite and in `[0, TWO_PI)` (10_state.md R53). -/
def PhasesWrapped (s : State) : Prop :=
  ∀ l, lfoExists s.cfg l = true →
    isFinite (lfo s l).phase = true ∧ fle fZero (lfo s l).phase = true ∧ flt (lfo s l).phase twoPi = true

/-- All the invariants that hold whatever the machine does at the points of 60_exceptions.md R296. -/
def Legal (s : State) : Prop :=
  s.cfg.wf = true ∧ memoryWf s.mem ∧ ParamsInRange s ∧ CsrsLegal s ∧ PreparedLegal s ∧ OscillatorsLegal s

/-! ## What a command may change -/

/-- The register a command writes (30_encoding.md R105: the formats with `rd`). -/
def destOf : Instr → Option Reg
  | .ldi rd _ => some rd
  | .mov rd _ => some rd
  | .csrr rd _ => some rd
  | .fadd rd _ _ => some rd
  | .fsub rd _ _ => some rd
  | .fmul rd _ _ => some rd
  | .fdiv rd _ _ => some rd
  | .getp rd _ => some rd
  | .pmin rd _ => some rd
  | .pmax rd _ => some rd
  | .pdef rd _ => some rd
  | .lnext rd _ => some rd
  | .pop rd _ _ _ _ => some rd
  | .shape rd _ => some rd
  | .trem rd _ _ => some rd
  | .dly rd _ _ => some rd
  | .chor rd _ _ _ => some rd
  | .dist rd _ => some rd
  | .nop | .prepare _ _ _ _ | .release | .rdr _ | .csrw _ _ | .setp _ _ | .enc | .dec | .fwd _ _ => none
  | .setf _ _ | .lrst _ | .setw _ _ | .dlw _ _ | .dladv _ | .push _ _ | .dlfb _ _ _ _ | .thr _ _ => none

/-- The channel whose sample memory a command stores to (20_memory.md R71), PREPARE apart. -/
def storeChannel : Instr → Option Chan
  | .dlw c _ => some c
  | .push c _ => some c
  | .dlfb c _ _ _ => some c
  | .dly _ _ c => some c
  | .chor _ _ _ c => some c
  | .nop | .prepare _ _ _ _ | .release | .ldi _ _ | .mov _ _ | .rdr _ | .csrr _ _ | .csrw _ _ => none
  | .fadd _ _ _ | .fsub _ _ _ | .fmul _ _ _ | .fdiv _ _ _ => none
  | .getp _ _ | .pmin _ _ | .pmax _ _ | .pdef _ _ | .setp _ _ | .enc | .dec | .fwd _ _ => none
  | .setf _ _ | .lrst _ | .lnext _ _ | .setw _ _ | .dladv _ | .pop _ _ _ _ _ => none
  | .shape _ _ | .thr _ _ | .trem _ _ _ | .dist _ _ => none

/-- The command is a PREPARE, the one that fills the sample memory. -/
def isPrepare : Instr → Bool
  | .prepare _ _ _ _ => true
  | _ => false

/-- The command advances the write index of a channel (43_delay_line.md R203, R204, R214, 45_effect_kernels.md R260). -/
def advances : Instr → Option Chan
  | .dladv c => some c
  | .push c _ => some c
  | .dlfb c _ _ _ => some c
  | .dly _ _ c => some c
  | .chor _ _ _ c => some c
  | _ => none

/-- Every byte of memory outside the word at address `a` reads as before. -/
def SameOutside (a : Nat) (m n : Memory) : Prop := ∀ b, b < a ∨ a + 4 ≤ b → readByte n b = readByte m b

/-- The histories with one more response on the executing port (30_encoding.md R113). -/
def responded (s : State) (v : Word) : Events :=
  { s.events with rsps := s.events.rsps ++ [{ port := s.ports.port, word := v }] }

/-- The word a command answers with. -/
def lastResponse (s : State) : Option Response := s.events.rsps.getLast?

/-! ## The C-port's moves (20_memory.md R82, log 3) -/

/-- The next step serves the C-port, if it can move: `rst` is low, and the A-port presents nothing or has to let it pass. -/
def CPortServed (s : State) : Prop := s.ports.rst = false ∧ (s.ports.aCmds = [] ∨ s.ports.turn = .c)

/-- The state a move of the C-port starts from: it is the executing port, and if the A-port has a packet waiting the next
turn is a free value (log 3). -/
def servingC (s : State) : State :=
  { s with
    ports := { s.ports with
      port := .c
      turn := if s.ports.aCmds = [] then s.ports.turn else if Config.servesAFirst s.grants then .a else .c }
    grants := if s.ports.aCmds = [] then s.grants else s.grants + 1 }

/-! ## Rounding (00_scope.md R12) -/

/-- `r` is the value x · 2^-149 rounded with roundTiesToEven: of all binary32 values the nearest, an infinity counted as the
next value above FLT_MAX as IEEE 754 has it, and on a tie the one with an even last bit. -/
def RoundsTo (x : ℝ) (r : Word) : Prop :=
  isNaN r = false ∧ ∀ w, isNaN w = false →
    |(f32Val r : ℝ) - x| ≤ |(f32Val w : ℝ) - x| ∧
      (|(f32Val r : ℝ) - x| = |(f32Val w : ℝ) - x| → f32Val w ≠ f32Val r → r.getLsbD 0 = false)

/-! ## Operands outside the points of 60_exceptions.md R296 -/

/-- SHAPE and DIST have their effect: the mode is not the one the configuration names as not designed, or the model is to
do there what the hardware does. -/
def ShapeRuns (s : State) : Prop := s.cfg.openPoints = .run ∨ s.cfg.unspecMode ≠ some s.csr.mode.toNat

/-- LNEXT has its effect: the advanced phase is finite, or the model is to do what the hardware does. -/
def LnextRuns (s : State) (l : Chan) : Prop := s.cfg.openPoints = .run ∨ isFinite (advancedPhase s l) = true

/-! ## Delay-line runs (43_delay_line.md R212) -/

/-- The sample steps of channel `c` after a first sample stands at the write index: for each word, advance, then write
it (the kernel order of 43_delay_line.md R200). -/
def laterSteps (c : Chan) : List Word → State → State
  | [], s => s
  | w :: ws, s => laterSteps c ws (storeSample c w (advance c s))

end Sys2Proof.Machine
end

