-- ==== Sys2Proof/Certificates/Slice0/Obligations.lean ====
section
/-! DEFINITION. The statements for the provers. Each docstring names the rules of spec/ the statement formalises; where a
statement says what a command does, the next state is written out field by field, so that it says what stays as well. -/

section

open Sys2Proof Sys2Proof.Machine

/-! ## Encoding (30_encoding.md) -/

/-- The worked encodings of R116, and the all-zero packet, decode to the commands they stand for. -/
def Obligations.DecodesWorkedEncodings : Prop :=
  decode 0x2B28000100000000 = .ok (.pop 1 2 0 .linear 0) ∧
    decode 0x086000003F000000 = .ok (.ldi 3 0x3F000000) ∧
    decode 0x1C0000013E4CCCCD = .ok (.setp 1 0x3E4CCCCD) ∧
    decode 0x0100820100000000 = .ok (.prepare 0 1 2 1) ∧
    decode 0x0D10002200000000 = .ok (.csrw 0x22 4) ∧
    decode 0x3A05010000000000 = .ok (.chor 0 1 2 1) ∧
    decode 0x0000000000000000 = .ok .nop

/-- Decoding an encoded command gives it back, whatever its operands. -/
def Obligations.DecodeEncode : Prop := ∀ i : Instr, decode (encode i) = .ok i

/-- Decoding is one-to-one (R107): a packet that decodes is the encoding of its command, so no bit is dropped. -/
def Obligations.EncodeDecode : Prop := ∀ (pkt : Packet) (i : Instr), decode pkt = .ok i → encode i = pkt

/-- The command map (R108), the match and mask of every row as the table has them: a packet decodes to a command of a row
exactly when its control word w has `w & mask = match` and, for every row but LDI and SETP, its immediate is zero. Each
of the 35 opcodes has its row. -/
def Obligations.CommandMapSelects : Prop :=
  ∀ pkt : Packet,
    ∀ row ∈ [(Op.nop, (0x00000000 : Word), (0xFFFFFFFF : Word)), (.prepare, 0x01000000, 0xFFE070E0),
        (.release, 0x02000000, 0xFFFFFFFF), (.ldi, 0x08000000, 0xFF1FFFFF), (.mov, 0x09000000, 0xFF03FFFF),
        (.rdr, 0x0A000000, 0xFFE3FFFF), (.csrr, 0x0C000000, 0xFF1FFF00), (.csrw, 0x0D000000, 0xFFE3FF00),
        (.fadd, 0x10000000, 0xFF007FFF), (.fsub, 0x11000000, 0xFF007FFF), (.fmul, 0x12000000, 0xFF007FFF),
        (.fdiv, 0x13000000, 0xFF007FFF), (.getp, 0x18000000, 0xFF1FFFE0), (.pmin, 0x19000000, 0xFF1FFFE0),
        (.pmax, 0x1A000000, 0xFF1FFFE0), (.pdef, 0x1B000000, 0xFF1FFFE0), (.setp, 0x1C000000, 0xFFFFFFE0),
        (.enc, 0x1D000000, 0xFFFFFFFF), (.dec, 0x1E000000, 0xFFFFFFFF), (.fwd, 0x1F000000, 0xFFFFF0E0),
        (.setf, 0x20000000, 0xFFE3F0FF), (.lrst, 0x21000000, 0xFFFFF0FF), (.lnext, 0x22000000, 0xFF1FF0FF),
        (.setw, 0x23000000, 0xFFFFF0FC), (.dlw, 0x28000000, 0xFFE3F0FF), (.dladv, 0x29000000, 0xFFFFF0FF),
        (.push, 0x2A000000, 0xFFE3F0FF), (.pop, 0x2B000000, 0xFF03F0F0), (.dlfb, 0x2C000000, 0xFFE000FF),
        (.shape, 0x30000000, 0xFF03FFFF), (.thr, 0x31000000, 0xFFE3FFFC), (.trem, 0x38000000, 0xFF007FFF),
        (.dly, 0x39000000, 0xFF03F0FF), (.chor, 0x3A000000, 0xFF0070FF), (.dist, 0x3B000000, 0xFF03FFFF)],
      (∃ i, decode pkt = .ok i ∧ i.op = row.1) ↔
        packetCw pkt &&& row.2.2 = row.2.1 ∧ (row.1 = .ldi ∨ row.1 = .setp ∨ packetImm pkt = 0)

/-! ## A step -/

/-- A step at a state whose next packet decodes to a command is that command's `exec`, on the port that presents it, with
the packet taken. Where both ports can move, the turn decides and a free value decides the next turn (model's choice of
an arbiter: log 2 and log 3; 20_memory.md R82 (d) fixes no order). -/
def Obligations.StepRunsDecodedCommand : Prop :=
  ∀ (s : State) (pkt : Packet) (rest : List Packet) (i : Instr),
    s.ports.rst = false → decode pkt = .ok i →
      (s.ports.aCmds = pkt :: rest → cReady s = false →
        step s = exec i { s with ports := { s.ports with aCmds := rest, port := .a } }) ∧
      (s.ports.aCmds = pkt :: rest → cReady s = true → s.ports.turn = .a →
        step s = exec i
          { s with
            ports := { s.ports with
              aCmds := rest, port := .a, turn := if Config.servesAFirst s.grants then .a else .c }
            grants := s.grants + 1 }) ∧
      (s.ports.cCmds = pkt :: rest → s.ports.stream = .idle → s.ports.aCmds = [] →
        step s = exec i { s with ports := { s.ports with cCmds := rest, port := .c } }) ∧
      (s.ports.cCmds = pkt :: rest → s.ports.stream = .idle → s.ports.aCmds ≠ [] → s.ports.turn = .c →
        step s = exec i
          { s with
            ports := { s.ports with
              cCmds := rest, port := .c, turn := if Config.servesAFirst s.grants then .a else .c }
            grants := s.grants + 1 })

/-- What a step does when no command is taken. A packet that is no command (R110 (a), (b)) is taken, ILL set, 0 answered,
nothing else changed (60_exceptions.md R292), contested or not (log 3). `rst` gives every register its reset value and
abandons the transfer in progress (10_state.md R63, 70_reset_and_hazards.md R320); what the agents present stays (log 11).
A transfer in progress goes on when its port moves, whether or not the A-port has a packet waiting (log 3), ENC with the
bytes it still has, DEC with the next group (log 10), and waits otherwise. With nothing to do a step changes nothing
(log 16). -/
def Obligations.StepOtherwise : Prop :=
  ∀ s : State,
    (s.ports.rst = true → ∃ t, step s = .next t ∧ t.cfg = s.cfg ∧
      (∀ r, reg t r = 0) ∧ t.csr = Csrs.reset ∧
      (∀ p, paramExists s.cfg p = true → param t p = paramDef s p) ∧
      (∀ l, (lfo t l).freq = 0 ∧ (lfo t l).phase = 0 ∧ (lfo t l).wave = 0) ∧
      (∀ c, (dline t c).w = 0 ∧ ∀ k, apz t c k = 0) ∧
      t.events = { rsps := [], notify := [], fwd := [], so := [] } ∧
      t.ports = { s.ports with stream := .idle, rst := false }) ∧
    (s.ports.rst = false →
      ∀ pkt rest e, decode pkt = .error e → s.ports.aCmds = pkt :: rest →
        (cReady s = false →
          step s = .next
            { s with
              csr := { s.csr with status := s.csr.status ||| 2 }
              ports := { s.ports with aCmds := rest, port := .a }
              events := { s.events with rsps := s.events.rsps ++ [{ port := .a, word := 0 }] } }) ∧
        (cReady s = true → s.ports.turn = .a →
          step s = .next
            { s with
              csr := { s.csr with status := s.csr.status ||| 2 }
              ports := { s.ports with
                aCmds := rest, port := .a, turn := if Config.servesAFirst s.grants then .a else .c }
              events := { s.events with rsps := s.events.rsps ++ [{ port := .a, word := 0 }] }
              grants := s.grants + 1 })) ∧
    (CPortServed s →
      (∀ pkt rest e, decode pkt = .error e → s.ports.cCmds = pkt :: rest → s.ports.stream = .idle →
        step s = .next
          { servingC s with
            csr := { s.csr with status := s.csr.status ||| 2 }
            ports := { (servingC s).ports with cCmds := rest }
            events := { s.events with rsps := s.events.rsps ++ [{ port := .c, word := 0 }] } }) ∧
      (∀ rest, s.ports.stream = .enc rest → 0 < s.ports.soRoom → step s = .next (encContinue rest (servingC s))) ∧
      (∀ n pending, s.ports.stream = .dec n pending → s.ports.si ≠ [] →
        step s = .next (decContinue n pending (servingC s)))) ∧
    (s.ports.rst = false → s.ports.aCmds = [] →
      (s.ports.stream = .idle → s.ports.cCmds = [] → step s = .next s) ∧
      (∀ rest, s.ports.stream = .enc rest → s.ports.soRoom = 0 → step s = .next s) ∧
      (∀ n pending, s.ports.stream = .dec n pending → s.ports.si = [] → step s = .next s))

/-! ## Legality and suppression (30_encoding.md R110, 60_exceptions.md R292 to R299) -/

/-- A suppressed command sets ILL and answers 0, and nothing else changes (R292), a packet that is no command included; ILL
is never cleared by a command; reset clears it; and whether a command is suppressed depends on its fields, the port,
the configuration, NCH and PREPARED only: no data value ever suppresses. -/
def Obligations.SuppressedCommand : Prop :=
  (∀ (i : Instr) (s : State), illegality i s ≠ none →
    exec i s = .next
      { s with csr := { s.csr with status := s.csr.status ||| 0x00000002 }, events := responded s 0x00000000 }) ∧
  (∀ (s t : State) (pkt : Packet) (e : Suppression), nextAction s = .command pkt t → decode pkt = .error e →
    step s = .next
      { t with csr := { t.csr with status := t.csr.status ||| 0x00000002 }, events := responded t 0x00000000 }) ∧
  (∀ (i : Instr) (s t : State), exec i s = .next t → illegalSeen s = true → illegalSeen t = true) ∧
  (∀ s : State, illegalSeen (takeReset s) = false) ∧
  (∀ (i : Instr) (s t : State), t.cfg = s.cfg → t.ports.port = s.ports.port → t.csr.nch = s.csr.nch →
    prepared t = prepared s → illegality i t = illegality i s)

/-- When a decoded command is legal, command by command (30_encoding.md R110 (c) to (f)). -/
def Obligations.LegalityTable : Prop :=
  ∀ s : State,
    illegality .nop s = none ∧
    (∀ ra rb nch pd, illegality (.prepare ra rb nch pd) s = none ↔
      s.ports.port = .a ∧ (pd = 31 ∨ pd.toNat < s.cfg.nParam)) ∧
    (illegality .release s = none ↔ s.ports.port = .a) ∧
    (∀ rd imm, illegality (.ldi rd imm) s = none ↔ s.ports.port = .a) ∧
    (∀ rd ra, illegality (.mov rd ra) s = none ↔ s.ports.port = .a) ∧
    (∀ ra, illegality (.rdr ra) s = none ↔ s.ports.port = .a) ∧
    (∀ rd a, illegality (.csrr rd a) s = none ↔ s.ports.port = .a ∧ ∃ r, csrAt s.cfg a = some r) ∧
    (∀ a ra, illegality (.csrw a ra) s = none ↔
      s.ports.port = .a ∧ ∃ r, csrAt s.cfg a = some r ∧ csrAccess r ≠ .ro) ∧
    (∀ rd ra rb, illegality (.fadd rd ra rb) s = none ↔ s.ports.port = .a) ∧
    (∀ rd ra rb, illegality (.fsub rd ra rb) s = none ↔ s.ports.port = .a) ∧
    (∀ rd ra rb, illegality (.fmul rd ra rb) s = none ↔ s.ports.port = .a) ∧
    (∀ rd ra rb, illegality (.fdiv rd ra rb) s = none ↔ s.ports.port = .a) ∧
    (∀ rd p, illegality (.getp rd p) s = none ↔ (s.ports.port = .c → rd = 0) ∧ p.toNat < s.cfg.nParam) ∧
    (∀ rd p, illegality (.pmin rd p) s = none ↔ (s.ports.port = .c → rd = 0) ∧ p.toNat < s.cfg.nParam) ∧
    (∀ rd p, illegality (.pmax rd p) s = none ↔ (s.ports.port = .c → rd = 0) ∧ p.toNat < s.cfg.nParam) ∧
    (∀ rd p, illegality (.pdef rd p) s = none ↔ (s.ports.port = .c → rd = 0) ∧ p.toNat < s.cfg.nParam) ∧
    (∀ p imm, illegality (.setp p imm) s = none ↔ s.ports.port = .c ∧ p.toNat < s.cfg.nParam) ∧
    (illegality .enc s = none ↔ s.ports.port = .c) ∧
    (illegality .dec s = none ↔ s.ports.port = .c) ∧
    (∀ k p, illegality (.fwd k p) s = none ↔ s.ports.port = .a ∧ k.toNat ≤ 4 ∧ p.toNat < s.cfg.nParam) ∧
    (∀ l ra, illegality (.setf l ra) s = none ↔ s.ports.port = .a ∧ l.toNat < s.cfg.nCh) ∧
    (∀ l, illegality (.lrst l) s = none ↔ s.ports.port = .a ∧ l.toNat < s.cfg.nCh) ∧
    (∀ rd l, illegality (.lnext rd l) s = none ↔ s.ports.port = .a ∧ l.toNat < s.cfg.nCh ∧ prepared s = true) ∧
    (∀ l w, illegality (.setw l w) s = none ↔ s.ports.port = .a ∧ l.toNat < s.cfg.nCh ∧ w.toNat < s.cfg.nWave) ∧
    (∀ c ra, illegality (.dlw c ra) s = none ↔
      s.ports.port = .a ∧ c.toNat < s.csr.nch.toNat ∧ prepared s = true) ∧
    (∀ c, illegality (.dladv c) s = none ↔ s.ports.port = .a ∧ c.toNat < s.csr.nch.toNat ∧ prepared s = true) ∧
    (∀ c ra, illegality (.push c ra) s = none ↔
      s.ports.port = .a ∧ c.toNat < s.csr.nch.toNat ∧ prepared s = true) ∧
    (∀ rd ra c m tap, illegality (.pop rd ra c m tap) s = none ↔
      s.ports.port = .a ∧ tap ≠ 3 ∧ c.toNat < s.csr.nch.toNat ∧ prepared s = true) ∧
    (∀ c ra rb rc, illegality (.dlfb c ra rb rc) s = none ↔
      s.ports.port = .a ∧ c.toNat < s.csr.nch.toNat ∧ prepared s = true) ∧
    (∀ rd ra, illegality (.shape rd ra) s = none ↔ s.ports.port = .a) ∧
    (∀ b ra, illegality (.thr b ra) s = none ↔ s.ports.port = .a ∧ b ≠ 3) ∧
    (∀ rd ra rb, illegality (.trem rd ra rb) s = none ↔ s.ports.port = .a) ∧
    (∀ rd ra c, illegality (.dly rd ra c) s = none ↔
      s.ports.port = .a ∧ c.toNat < s.csr.nch.toNat ∧ prepared s = true) ∧
    (∀ rd ra rb c, illegality (.chor rd ra rb c) s = none ↔
      s.ports.port = .a ∧ c.toNat < s.csr.nch.toNat ∧ prepared s = true) ∧
    (∀ rd ra, illegality (.dist rd ra) s = none ↔ s.ports.port = .a)

/-- LNEXT, DLW, DLADV, PUSH, POP, DLFB, DLY and CHOR are suppressed while PREPARED is 0 (R293); the legality of every other
command does not depend on PREPARED. -/
def Obligations.PreparedGate : Prop :=
  (∀ (s : State), prepared s = false →
    ∀ i ∈ [Op.lnext, .dlw, .dladv, .push, .pop, .dlfb, .dly, .chor], ∀ j : Instr, j.op = i →
      exec j s = .next
        { s with csr := { s.csr with status := s.csr.status ||| 2 }, events := responded s 0 }) ∧
  (∀ (s : State) (j : Instr), j.op ∉ [Op.lnext, .dlw, .dladv, .push, .pop, .dlfb, .dly, .chor] →
    illegality j { s with csr := { s.csr with status := s.csr.status ^^^ 1 } } = illegality j s)

/-- A command on a port without the right to it is suppressed; the rights are the table of R299; a C-port read of a
parameter has `rd` 0; and an A-port command writes no parameter. -/
def Obligations.PortRights : Prop :=
  (∀ op : Op, op.onPort .a = true ↔ op ∉ [Op.setp, .enc, .dec]) ∧
  (∀ op : Op, op.onPort .c = true ↔ op ∈ [Op.nop, .getp, .pmin, .pmax, .pdef, .setp, .enc, .dec]) ∧
  (∀ (i : Instr) (s : State), i.op.onPort s.ports.port = false →
    exec i s = .next
      { s with csr := { s.csr with status := s.csr.status ||| 2 }, events := responded s 0 }) ∧
  (∀ (s : State) (rd : Reg) (p : ParamIdx), s.ports.port = .c → rd ≠ 0 →
    ∀ i ∈ [Instr.getp rd p, .pmin rd p, .pmax rd p, .pdef rd p],
      exec i s = .next
        { s with csr := { s.csr with status := s.csr.status ||| 2 }, events := responded s 0 }) ∧
  (∀ (i : Instr) (s t : State), s.ports.port = .a → exec i s = .next t → t.cur = s.cur)

/-! ## System and data movement (40_system_datapath.md) -/

/-- NOP changes nothing but its response, on both ports, and is the all-zero packet alone (R130). -/
def Obligations.NopDoesNothing : Prop :=
  (∀ s : State, exec .nop s = .next { s with events := responded s 0 }) ∧
  (∀ pkt : Packet, cwOp (packetCw pkt) = 0 →
    decode pkt = if pkt = 0 then .ok .nop else .error .unused)

/-- A successful PREPARE (R132): what it latches, the zero fill, the indices and all-pass state it clears, the phases under
RPOP, and everything it leaves alone. The byte addresses are the model's own (log 8). -/
def Obligations.PrepareSucceeds : Prop :=
  ∀ (s : State) (ra rb : Reg) (nch : Chan) (pd : ParamIdx),
    s.ports.port = .a → (pd = 31 ∨ pd.toNat < s.cfg.nParam) →
    isFinite (reg s ra) = true → fgt (reg s ra) fZero = true → reg s rb ≠ 0 →
    1 ≤ nch.toNat → nch.toNat ≤ s.cfg.nCh →
    (pd ≠ 31 → isNaN (fceil (fmul (paramMax s pd) (reg s ra))) = false ∧
      flt (fceil (fmul (paramMax s pd) (reg s ra))) fZero = false ∧
      fgt (fceil (fmul (paramMax s pd) (reg s ra))) (u2f s.cfg.capMax) = false) →
    let m := if pd = 31 then fZero else fceil (fmul (paramMax s pd) (reg s ra))
    let n := 2 * f2u m + s.cfg.capMargin
    n ≤ s.cfg.capMax →
    ∃ t, exec (.prepare ra rb nch pd) s = .next t ∧
      t.csr = { s.csr with
        status := (s.csr.status ||| 1) &&& 0xFFFFFFFB
        sr := reg s ra
        blk := reg s rb
        nch := BitVec.ofNat 32 nch.toNat
        cap := BitVec.ofNat 32 n } ∧
      (∀ c i, c.toNat < nch.toNat → i < n → readWord t.mem (dlAddr c i) = 0) ∧
      (∀ a, (∀ c i, c.toNat < nch.toNat → i < n → a < dlAddr c i ∨ dlAddr c i + 4 ≤ a) →
        readByte t.mem a = readByte s.mem a) ∧
      (∀ c, c.toNat < s.cfg.nCh → (dline t c).w = 0 ∧ ∀ k, apz t c k = 0) ∧
      (∀ l, lfo t l = { lfo s l with phase := if resetsPhase s then 0 else (lfo s l).phase }) ∧
      t.d = s.d ∧ t.cur = s.cur ∧ t.cfg = s.cfg ∧ t.ports = s.ports ∧
      t.events = responded s ((s.csr.status ||| 1) &&& 0xFFFFFFFB) ∧
      t.draws = s.draws ∧ t.unspecs = s.unspecs ∧ t.grants = s.grants

/-- A PREPARE that meets one of the tests (a) to (e) of R133 clears PREPARED, sets PERR, answers with the new STATUS and
changes nothing else. -/
def Obligations.PrepareRejects : Prop :=
  ∀ (s : State) (ra rb : Reg) (nch : Chan) (pd : ParamIdx),
    s.ports.port = .a → (pd = 31 ∨ pd.toNat < s.cfg.nParam) →
    let sr := reg s ra
    let m := if pd = 31 then fZero else fceil (fmul (paramMax s pd) sr)
    ((isNaN sr = true ∨ isInf sr = true ∨ fle sr fZero = true) ∨
      reg s rb = 0 ∨
      (nch = 0 ∨ s.cfg.nCh < nch.toNat) ∨
      (pd ≠ 31 ∧ (isNaN m = true ∨ flt m fZero = true ∨ fgt m (u2f s.cfg.capMax) = true)) ∨
      s.cfg.capMax < 2 * f2u m + s.cfg.capMargin) →
    let st := (s.csr.status &&& 0xFFFFFFFE) ||| 4
    exec (.prepare ra rb nch pd) s = .next { s with csr := { s.csr with status := st }, events := responded s st }

/-- Two PREPAREs in a row with the same operands leave the same state as one, but for the second response (R132). -/
def Obligations.PrepareIsIdempotent : Prop :=
  ∀ (s t : State) (ra rb : Reg) (nch : Chan) (pd : ParamIdx),
    s.ports.port = .a → (pd = 31 ∨ pd.toNat < s.cfg.nParam) →
    exec (.prepare ra rb nch pd) s = .next t →
    exec (.prepare ra rb nch pd) t = .next { t with events := responded t t.csr.status }

/-- RELEASE clears PREPARED and changes nothing else (R134); LDI, MOV and RDR move a word, bits unchanged (R135, R136,
R139). -/
def Obligations.ReleaseAndDataMovement : Prop :=
  ∀ (s : State) (rd ra : Reg) (imm : Word), s.ports.port = .a →
    exec .release s = .next
      { s with csr := { s.csr with status := s.csr.status &&& 0xFFFFFFFE }, events := responded s 0 } ∧
    exec (.ldi rd imm) s = .next { s with d := s.d.set rd.toNat imm rd.isLt, events := responded s imm } ∧
    exec (.mov rd ra) s = .next
      { s with d := s.d.set rd.toNat (reg s ra) rd.isLt, events := responded s (reg s ra) } ∧
    exec (.rdr ra) s = .next { s with events := responded s (reg s ra) }

/-- The CSR map (10_state.md R35): which register stands at each address, its access, and its value after reset; every
other address is reserved. -/
def Obligations.CsrMap : Prop :=
  ∀ cfg : Config, cfg.nCh ≤ 15 →
    (∀ row ∈ [(0x00, Csr.status, Access.ro, (0x00000000 : Word)), (0x01, .ctrl, .warl, 0x00000001),
        (0x02, .sr, .ro, 0), (0x03, .blk, .ro, 0), (0x04, .nch, .ro, 0), (0x05, .cap, .ro, 0),
        (0x06, .nparam, .ro, BitVec.ofNat 32 cfg.nParam), (0x10, .mode, .rw, 0),
        (0x11, .kdrive, .rw, 0x3F800000), (0x12, .kcubic, .rw, 0), (0x13, .kloth, .rw, 0), (0x14, .khith, .rw, 0),
        (0x15, .kbits, .warl, 32), (0x16, .kpdrop, .rw, 0), (0x17, .kdgain, .rw, 0x3F800000),
        (0x18, .kfold, .rw, 0x7F800000), (0x20, .kgain, .rw, 0x3F800000), (0x21, .kdepth, .rw, 0),
        (0x22, .kmix, .rw, 0), (0x23, .kfb, .rw, 0), (0x24, .kdelay, .rw, 0), (0x25, .kntap, .warl, 1),
        (0x26, .kinterp, .warl, 1)],
      csrAt cfg (BitVec.ofNat 8 row.1) = some row.2.1 ∧ csrAccess row.2.1 = row.2.2.1 ∧
        csrValue (State.resetWith cfg) row.2.1 = row.2.2.2) ∧
    (∀ l : Chan, l.toNat < cfg.nCh →
      ∀ row ∈ [(0x40, Csr.lfreq l), (0x50, .lphase l), (0x60, .lwave l), (0x70, .widx l)],
        csrAt cfg (BitVec.ofNat 8 (row.1 + l.toNat)) = some row.2 ∧ csrAccess row.2 = .ro ∧
          csrValue (State.resetWith cfg) row.2 = 0) ∧
    (∀ a : CsrAddr, csrAt cfg a = none ↔
      ¬ (a.toNat ≤ 0x06 ∨ (0x10 ≤ a.toNat ∧ a.toNat ≤ 0x18) ∨ (0x20 ≤ a.toNat ∧ a.toNat ≤ 0x26) ∨
        (0x40 ≤ a.toNat ∧ a.toNat < 0x40 + cfg.nCh) ∨ (0x50 ≤ a.toNat ∧ a.toNat < 0x50 + cfg.nCh) ∨
        (0x60 ≤ a.toNat ∧ a.toNat < 0x60 + cfg.nCh) ∨ (0x70 ≤ a.toNat ∧ a.toNat < 0x70 + cfg.nCh)))

/-- CSRR writes the register's value to `rd` and changes nothing else (R137): at each address the value of the register the
map has there (10_state.md R35), the views showing the oscillators and the write indices (R44). -/
def Obligations.CsrrReads : Prop :=
  (∀ (s : State) (rd : Reg) (a : CsrAddr) (r : Csr), s.ports.port = .a → csrAt s.cfg a = some r →
    exec (.csrr rd a) s = .next
      { s with d := s.d.set rd.toNat (csrValue s r) rd.isLt, events := responded s (csrValue s r) }) ∧
  (∀ (s : State) (rd : Reg), s.ports.port = .a →
    ∀ row ∈ [((0x00 : CsrAddr), s.csr.status), (0x01, s.csr.ctrl), (0x02, s.csr.sr), (0x03, s.csr.blk),
        (0x04, s.csr.nch), (0x05, s.csr.cap), (0x06, BitVec.ofNat 32 s.cfg.nParam), (0x10, s.csr.mode),
        (0x11, s.csr.kdrive), (0x12, s.csr.kcubic), (0x13, s.csr.kloth), (0x14, s.csr.khith), (0x15, s.csr.kbits),
        (0x16, s.csr.kpdrop), (0x17, s.csr.kdgain), (0x18, s.csr.kfold), (0x20, s.csr.kgain), (0x21, s.csr.kdepth),
        (0x22, s.csr.kmix), (0x23, s.csr.kfb), (0x24, s.csr.kdelay), (0x25, s.csr.kntap), (0x26, s.csr.kinterp)],
      exec (.csrr rd row.1) s = .next { s with d := s.d.set rd.toNat row.2 rd.isLt, events := responded s row.2 }) ∧
  (∀ (s : State) (rd : Reg) (l : Chan), s.ports.port = .a → l.toNat < s.cfg.nCh →
    ∀ row ∈ [((0x40 : CsrAddr), (lfo s l).freq), (0x50, (lfo s l).phase),
        (0x60, BitVec.ofNat 32 (lfo s l).wave.toNat), (0x70, BitVec.ofNat 32 (dline s l).w)],
      exec (.csrr rd (row.1 + l.setWidth 8)) s = .next
        { s with d := s.d.set rd.toNat row.2 rd.isLt, events := responded s row.2 })

/-- CSRW stores the word in an RW register and the legal value in a WARL register, answers 0 and changes nothing else: every
other register reads as before (R138). At each writable address it is the register the map has there (10_state.md R35)
that is written. -/
def Obligations.CsrwWrites : Prop :=
  (∀ (s : State) (a : CsrAddr) (ra : Reg) (r : Csr), s.ports.port = .a → csrAt s.cfg a = some r → csrAccess r ≠ .ro →
    ∃ x, exec (.csrw a ra) s = .next { s with csr := x, events := responded s 0 } ∧
      (let t := { s with csr := x, events := responded s 0 }
      (csrAccess r = .rw → csrValue t r = reg s ra) ∧
      (r = .ctrl → csrValue t r = reg s ra &&& 1) ∧
      (r = .kbits → (csrValue t r).toNat = max 1 (min (reg s ra).toNat 32)) ∧
      (r = .kntap → (csrValue t r).toNat = max 1 (min (reg s ra).toNat 3)) ∧
      (r = .kinterp → csrValue t r = reg s ra &&& 3) ∧
      ∀ q, q ≠ r → csrValue t q = csrValue s q)) ∧
  (∀ (s : State) (ra : Reg), s.ports.port = .a →
    let v := reg s ra
    ∀ row ∈ [((0x01 : CsrAddr), { s.csr with ctrl := v &&& 1 }), (0x10, { s.csr with mode := v }),
        (0x11, { s.csr with kdrive := v }), (0x12, { s.csr with kcubic := v }), (0x13, { s.csr with kloth := v }),
        (0x14, { s.csr with khith := v }), (0x15, { s.csr with kbits := BitVec.ofNat 32 (max 1 (min v.toNat 32)) }),
        (0x16, { s.csr with kpdrop := v }), (0x17, { s.csr with kdgain := v }), (0x18, { s.csr with kfold := v }),
        (0x20, { s.csr with kgain := v }), (0x21, { s.csr with kdepth := v }), (0x22, { s.csr with kmix := v }),
        (0x23, { s.csr with kfb := v }), (0x24, { s.csr with kdelay := v }),
        (0x25, { s.csr with kntap := BitVec.ofNat 32 (max 1 (min v.toNat 3)) }),
        (0x26, { s.csr with kinterp := v &&& 3 })],
      exec (.csrw row.1 ra) s = .next { s with csr := row.2, events := responded s 0 })

/-- KBITS (10_state.md R41): a CSRW of v stores `clampu(v, 1, 32)`, v read as u32; the reset value is 32; every step keeps it
between 1 and 32, where `2^(bits-1)` is a power of two between 2^0 and 2^31, exact. -/
def Obligations.KbitsIsClamped : Prop :=
  (∀ (s : State) (ra : Reg), s.ports.port = .a →
    ∃ t, exec (.csrw 0x15 ra) s = .next t ∧
      t.csr.kbits.toNat = if (reg s ra).toNat < 1 then 1 else if 32 < (reg s ra).toNat then 32 else (reg s ra).toNat) ∧
  (∀ cfg, (State.resetWith cfg).csr.kbits = 32) ∧
  (∀ s t : State, step s = .next t → 1 ≤ s.csr.kbits.toNat → s.csr.kbits.toNat ≤ 32 →
    1 ≤ t.csr.kbits.toNat ∧ t.csr.kbits.toNat ≤ 32) ∧
  (∀ n, 1 ≤ n → n ≤ 32 → f32Mag (pow2 (n - 1)) = 2 ^ (n - 1) * 2 ^ 149 ∧ isFinite (pow2 (n - 1)) = true)

/-! ## Arithmetic (40_system_datapath.md R140 to R143, 00_scope.md) -/

/-- FADD, FSUB, FMUL and FDIV write the primitive's result to `rd`, operands read before, and change nothing else. -/
def Obligations.ArithmeticCommands : Prop :=
  ∀ (s : State) (rd ra rb : Reg), s.ports.port = .a →
    ∀ row ∈ [(Instr.fadd rd ra rb, fadd (reg s ra) (reg s rb)), (.fsub rd ra rb, fsub (reg s ra) (reg s rb)),
        (.fmul rd ra rb, fmul (reg s ra) (reg s rb)), (.fdiv rd ra rb, fdiv (reg s ra) (reg s rb))],
      exec row.1 s = .next { s with d := s.d.set rd.toNat row.2 rd.isLt, events := responded s row.2 }

/-- `fadd`, `fsub`, `fmul`, `fdiv` and `fsqrt` are each correctly rounded, once, with roundTiesToEven (R12): for finite
operands the result is the binary32 value nearest the exact sum, difference, product, quotient or square root, here in
units of 2^-149; a product and a quotient have the product of the signs, an exact zero sum is -0.0 only where both
operands are negative. The rounding they share, `fround`, gives for every sign and every n/d the nearest of all binary32
values, infinity counted as the next value above FLT_MAX as IEEE 754 has it, and on a tie the one with an even last
bit. -/
def Obligations.RoundingIsNearestEven : Prop :=
  (∀ (neg : Bool) (n d : Nat), 0 < d →
    let r := fround neg n d
    isNaN r = false ∧ f32Neg r = neg ∧
      ∀ w, isNaN w = false →
        ((f32Mag r * d : Nat) - (n : Int)).natAbs ≤ ((f32Mag w * d : Nat) - (n : Int)).natAbs ∧
        (((f32Mag r * d : Nat) - (n : Int)).natAbs = ((f32Mag w * d : Nat) - (n : Int)).natAbs →
          f32Mag w ≠ f32Mag r → r.getLsbD 0 = false)) ∧
  (∀ a b, isFinite a = true → isFinite b = true →
    RoundsTo ((f32Val a : ℝ) + f32Val b) (fadd a b) ∧
    RoundsTo ((f32Val a : ℝ) - f32Val b) (fsub a b) ∧
    RoundsTo ((f32Val a : ℝ) * f32Val b / 2 ^ 149) (fmul a b) ∧
    (f32Mag b ≠ 0 → RoundsTo ((f32Val a : ℝ) / f32Val b * 2 ^ 149) (fdiv a b)) ∧
    (f32Val a + f32Val b = 0 → fadd a b = if f32Neg a && f32Neg b then 0x80000000 else 0x00000000) ∧
    f32Neg (fmul a b) = (f32Neg a != f32Neg b) ∧
    (f32Mag b ≠ 0 → f32Neg (fdiv a b) = (f32Neg a != f32Neg b))) ∧
  (∀ a, isFinite a = true → 0 ≤ f32Val a →
    RoundsTo (Real.sqrt ((f32Val a : ℝ) * 2 ^ 149)) (fsqrt a) ∧ f32Neg (fsqrt a) = f32Neg a)

/-- The corner cases of the arithmetic commands (R13, R140 to R143): a NaN operand gives the canonical NaN; the sum of a
finite value and its negation is +0.0; adding zero of either sign to a finite non-zero value and multiplying a number
by one keep its bits; sums and products commute; opposite infinities, zero times infinity, 0/0 and inf/inf give the
canonical NaN; a finite non-zero value over zero gives an infinity of the product of the signs; an infinity added to a
finite value stays, times or over a value where that is a number it is one of the product of the signs, and a finite
value over it is a zero of that sign. The square root of a NaN or of a negative non-zero value is the canonical NaN, of
a zero or of +inf the operand. -/
def Obligations.ArithmeticCorners : Prop :=
  (∀ a b, isNaN a = true ∨ isNaN b = true →
    fadd a b = 0x7FC00000 ∧ fsub a b = 0x7FC00000 ∧ fmul a b = 0x7FC00000 ∧ fdiv a b = 0x7FC00000) ∧
  (∀ a, isFinite a = true → fadd a (fneg a) = 0 ∧ fsub a a = 0) ∧
  (∀ a, isFinite a = true → f32Mag a ≠ 0 → fadd a 0x00000000 = a ∧ fadd a 0x80000000 = a) ∧
  (∀ a, isNaN a = false → fmul a fOne = a ∧ fdiv a fOne = a) ∧
  (∀ a b, fadd a b = fadd b a ∧ fmul a b = fmul b a) ∧
  (∀ a b, isInf a = true → isInf b = true → fdiv a b = 0x7FC00000 ∧ (f32Neg a ≠ f32Neg b → fadd a b = 0x7FC00000)) ∧
  (∀ a b, isZero a = true → isInf b = true → fmul a b = 0x7FC00000) ∧
  (∀ a b, isZero a = true → isZero b = true → fdiv a b = 0x7FC00000) ∧
  (∀ a b, isFinite a = true → f32Mag a ≠ 0 → isZero b = true →
    fdiv a b = if f32Neg a = f32Neg b then 0x7F800000 else 0xFF800000) ∧
  (∀ a b, isInf a = true → isFinite b = true → fadd a b = a ∧ fsub a b = a ∧
    fdiv a b = (if f32Neg a = f32Neg b then 0x7F800000 else 0xFF800000) ∧
    fdiv b a = (if f32Neg a = f32Neg b then 0x00000000 else 0x80000000)) ∧
  (∀ a b, isInf a = true → isNaN b = false → isZero b = false →
    fmul a b = if f32Neg a = f32Neg b then 0x7F800000 else 0xFF800000) ∧
  (∀ a, isNaN a = true ∨ (f32Neg a = true ∧ isZero a = false) → fsqrt a = 0x7FC00000) ∧
  (∀ a, isZero a = true → fsqrt a = a) ∧
  fsqrt 0x7F800000 = 0x7F800000

/-- `ffloor`, `fceil`, `frint` of a finite value are exact: the largest integer not above, the least not below, the nearest
with ties to even, the sign kept (R15); values count units of 2^-149. `u2f` is exact below 2^24 and `f2u` undoes it
(R17). -/
def Obligations.IntegralRounding : Prop :=
  (∀ n, n < 2 ^ 24 → isFinite (u2f n) = true ∧ f32Neg (u2f n) = false ∧ f32Mag (u2f n) = n * 2 ^ 149 ∧
    f2u (u2f n) = n) ∧
  ∀ a, isFinite a = true →
    f32Val (ffloor a) = f32Val a / 2 ^ 149 * 2 ^ 149 ∧
    f32Val (fceil a) = -(-f32Val a / 2 ^ 149 * 2 ^ 149) ∧
    (∃ k : Int, f32Val (frint a) = k * 2 ^ 149 ∧ 2 * (f32Val (frint a) - f32Val a).natAbs ≤ 2 ^ 149 ∧
      (2 * (f32Val (frint a) - f32Val a).natAbs = 2 ^ 149 → k % 2 = 0)) ∧
    f32Neg (ffloor a) = f32Neg a ∧ f32Neg (fceil a) = f32Neg a ∧ f32Neg (frint a) = f32Neg a

/-- `fmodt` (R16): exact, with the sign of a, below `fabs(b)` in magnitude; NaN for infinite a or zero b; a for infinite b. -/
def Obligations.FmodtIsExact : Prop :=
  (∀ a b, isFinite a = true → isFinite b = true → f32Mag b ≠ 0 →
    f32Val (fmodt a b) = f32Val a - f32Val b * (f32Val a).tdiv (f32Val b) ∧
    f32Neg (fmodt a b) = f32Neg a ∧ f32Mag (fmodt a b) < f32Mag b ∧ isFinite (fmodt a b) = true) ∧
  (∀ a b, isInf a = true ∨ isZero b = true → isNaN (fmodt a b) = true) ∧
  (∀ a b, isFinite a = true → isInf b = true → fmodt a b = a)

/-- `clampf` (R19), for lo ≤ hi and v not a NaN: lo below the range, hi above it, v with its bits kept inside it. -/
def Obligations.ClampfClamps : Prop :=
  ∀ v lo hi, fle lo hi = true → isNaN v = false →
    (flt v lo = true → clampf v lo hi = lo) ∧
    (flt hi v = true → clampf v lo hi = hi) ∧
    (flt v lo = false → flt hi v = false → clampf v lo hi = v) ∧
    (isInf v = true → f32Neg v = true → isFinite lo = true → clampf v lo hi = lo) ∧
    (isInf v = true → f32Neg v = false → isFinite hi = true → clampf v lo hi = hi) ∧
    fle lo (clampf v lo hi) = true ∧ fle (clampf v lo hi) hi = true

/-! ## Parameter store (41_parameter_store.md) -/

/-- GETP, PMIN, PMAX and PDEF: on the A-port the word goes to `rd`, on the C-port it is the response only (R161 to R164). FWD
emits one event with the current value, answers 0 and changes nothing else (R168). -/
def Obligations.ParameterReadsAndFwd : Prop :=
  ∀ (s : State) (rd : Reg) (k : Chan) (p : ParamIdx), p.toNat < s.cfg.nParam →
    (s.ports.port = .a →
      (∀ row ∈ [(Instr.getp rd p, param s p), (.pmin rd p, paramMin s p), (.pmax rd p, paramMax s p),
          (.pdef rd p, paramDef s p)],
        exec row.1 s = .next { s with d := s.d.set rd.toNat row.2 rd.isLt, events := responded s row.2 }) ∧
      (k.toNat ≤ 4 →
        exec (.fwd k p) s = .next
          { s with events := { s.events with
              rsps := s.events.rsps ++ [{ port := .a, word := 0 }]
              fwd := s.events.fwd ++ [{ k := k.setWidth 3, v := param s p }] } })) ∧
    (s.ports.port = .c →
      ∀ row ∈ [(Instr.getp 0 p, param s p), (.pmin 0 p, paramMin s p), (.pmax 0 p, paramMax s p),
          (.pdef 0 p, paramDef s p)],
        exec row.1 s = .next { s with events := responded s row.2 })

/-- SETP (R165, R166): a NaN stores nothing, notifies nothing and answers the old value; any other value is clamped, stored,
notified once and answered; nothing else changes. -/
def Obligations.SetpStores : Prop :=
  ∀ (s : State) (p : ParamIdx) (v : Word), s.ports.port = .c → p.toNat < s.cfg.nParam →
    (isNaN v = true → exec (.setp p v) s = .next { s with events := responded s (param s p) }) ∧
    (isNaN v = false →
      let c := clampf v (paramMin s p) (paramMax s p)
      exec (.setp p v) s = .next
        { s with
          cur := s.cur.set p.toNat c p.isLt
          events := { s.events with
            rsps := s.events.rsps ++ [{ port := .c, word := c }]
            notify := s.events.notify ++ [{ p := p, v := c }] } })

/-- Nothing but a storing SETP and a storing step of DEC emits NOTIFY, one event at a time, with the index and the value
stored (R167): the history a step leaves is the one before, or the one before and one such event, or empty after reset. -/
def Obligations.NotifyComesFromSetters : Prop :=
  (∀ (i : Instr) (s t : State), exec i s = .next t → i.op ≠ .setp → i.op ≠ .dec → t.events.notify = s.events.notify) ∧
  (∀ s t : State, step s = .next t → s.ports.rst = false →
    (t.events.notify = s.events.notify ∧ t.cur = s.cur) ∨
      ∃ p, p.toNat < s.cfg.nParam ∧ t.events.notify = s.events.notify ++ [{ p := p, v := param t p }] ∧
        ∀ q, q ≠ p → param t q = param s q)

/-! ## Oscillators (42_oscillator.md) -/

/-- SETF, LRST and SETW write the one field of the one oscillator they name (R181, R182, R183); SETF discards a NaN, and stores
+0.0 for anything not above zero and FLT_MAX for +inf. -/
def Obligations.OscillatorWrites : Prop :=
  ∀ (s : State) (l : Chan) (ra : Reg) (w : BitVec 2), s.ports.port = .a → l.toNat < s.cfg.nCh →
    (isNaN (reg s ra) = true → exec (.setf l ra) s = .next { s with events := responded s 0 }) ∧
    (isNaN (reg s ra) = false →
      let f := if fle (reg s ra) fZero then 0x00000000 else if reg s ra = 0x7F800000 then 0x7F7FFFFF else reg s ra
      exec (.setf l ra) s = .next
        { s with lfos := s.lfos.set l.toNat { lfo s l with freq := f } l.isLt, events := responded s 0 }) ∧
    exec (.lrst l) s = .next
      { s with lfos := s.lfos.set l.toNat { lfo s l with phase := 0 } l.isLt, events := responded s 0 } ∧
    (w.toNat < s.cfg.nWave →
      exec (.setw l w) s = .next
        { s with lfos := s.lfos.set l.toNat { lfo s l with wave := w } l.isLt, events := responded s 0 })

/-- LNEXT (R184): advance, wrap, answer the waveform function of the new phase; only the phase, `rd` and the response change.
With waveform 0 the answer is `fsin` of the new phase. -/
def Obligations.LnextAdvances : Prop :=
  ∀ (s : State) (rd : Reg) (l : Chan), s.ports.port = .a → l.toNat < s.cfg.nCh → prepared s = true → LnextRuns s l →
    let ph := fadd (lfo s l).phase (fdiv (fmul twoPi (lfo s l).freq) s.csr.sr)
    let ph' := fmodt ph twoPi
    let y := waveFn s.cfg (lfo s l).wave ph'
    exec (.lnext rd l) s = .next
      { s with
        d := s.d.set rd.toNat y rd.isLt
        lfos := s.lfos.set l.toNat { lfo s l with phase := ph' } l.isLt
        events := responded s y } ∧
    ((lfo s l).wave = 0 → y = fsin s.cfg ph')

/-- `NUM.sin`, `NUM.atan` and the waveforms have the properties the spec names, in either instance (log 7): (P-sin-1) to
(P-sin-3), (P-atan-1), (P-atan-2), (P-atan-4) and (P-atan-5) of R22, and those of 42_oscillator.md R187 for every
`WAVEFN[w]`, of which `WAVEFN[0]` is `fsin`. (P-atan-3), that `fatan` is non-decreasing, is stated of the arbitrary
instance, where it holds by construction. -/
def Obligations.TranscendentalProperties : Prop :=
  ∀ cfg : Config,
    fsin cfg 0x00000000 = 0x00000000 ∧
    (∀ a, isFinite a = true → fle 0xBF800000 (fsin cfg a) = true ∧ fle (fsin cfg a) 0x3F800000 = true) ∧
    (∀ a, isFinite a = false → fsin cfg a = 0x7FC00000) ∧
    fatan cfg 0x00000000 = 0x00000000 ∧ fatan cfg 0x80000000 = 0x80000000 ∧
    (∀ a, isNaN a = false → fatan cfg (fneg a) = fneg (fatan cfg a)) ∧
    (cfg.num = .any → ∀ a b, fle a b = true → fle (fatan cfg a) (fatan cfg b) = true) ∧
    (∀ a, isNaN a = false → fle (fabs (fatan cfg a)) 0x3FC90FDB = true) ∧
    (∀ a, isInf a = true → fabs (fatan cfg a) = 0x3FC90FDB) ∧
    (∀ a, isNaN a = true → fatan cfg a = 0x7FC00000) ∧
    (∀ a, waveFn cfg 0 a = fsin cfg a) ∧
    (∀ w a, isFinite a = true → fle fZero a = true → flt a twoPi = true →
      isNaN (waveFn cfg w a) = false ∧ fle 0xBF800000 (waveFn cfg w a) = true ∧
        fle (waveFn cfg w a) 0x3F800000 = true) ∧
    (∀ w a, isFinite a = false → waveFn cfg w a = 0x7FC00000)

/-! ## Delay lines (43_delay_line.md) -/

/-- DLW, DLADV, PUSH and DLFB (R202, R203, R204, R214): the word at the write index, the advance of that index, and nothing
else; every byte outside the word stored to reads as before. The byte addresses are the model's own (log 8). -/
def Obligations.DelayLineWrites : Prop :=
  ∀ (s : State) (c : Chan) (ra rb rc : Reg),
    s.ports.port = .a → c.toNat < s.csr.nch.toNat → prepared s = true → memoryWf s.mem →
    let a := dlAddr c (dline s c).w
    let adv := s.dls.set c.toNat { dline s c with w := ((dline s c).w + 1) % s.csr.cap.toNat } c.isLt
    let fb := fadd (reg s ra) (fmul (reg s rc) (reg s rb))
    (∃ m, exec (.dlw c ra) s = .next { s with mem := m, events := responded s 0 } ∧
      readWord m a = reg s ra ∧ SameOutside a s.mem m) ∧
    exec (.dladv c) s = .next { s with dls := adv, events := responded s 0 } ∧
    (∃ m, exec (.push c ra) s = .next { s with mem := m, dls := adv, events := responded s 0 } ∧
      readWord m a = reg s ra ∧ SameOutside a s.mem m) ∧
    (∃ m, exec (.dlfb c ra rb rc) s = .next { s with mem := m, dls := adv, events := responded s 0 } ∧
      readWord m a = fb ∧ SameOutside a s.mem m)

/-- The values of a tap read (R201, R205, R208 to R211), with x(i) the word i places behind the write index. The byte
addresses are the model's own (log 8). -/
def Obligations.TapReadValues : Prop :=
  ∀ (s : State) (c : Chan) (d : Word) (k : Slot),
    let x := fun i : Nat => readWord s.mem (dlAddr c (((dline s c).w - (i : Int)) % (s.csr.cap.toNat : Int)).toNat)
    let i := f2u (ffloor d)
    let fr := fsub d (ffloor d)
    tapValue s c d .none k = x (f2u (frint d)) ∧
    (feq fr fZero = true → tapValue s c d .linear k = x i ∧ tapValue s c d .allpass k = x i ∧
      tapValue s c d .cubic k = x i) ∧
    (feq fr fZero = false →
      tapValue s c d .linear k = fadd (fmul (x i) (fsub fOne fr)) (fmul (x (i + 1)) fr) ∧
      tapValue s c d .allpass k =
        fadd (x (i + 1)) (fmul (fdiv (fsub fOne fr) (fadd fOne fr)) (fsub (x i) (apz s c k))) ∧
      (let a := fadd fr fOne
      let b := fsub fr fOne
      let g := fsub fr 0x40000000
      let cm := fneg (fdiv (fmul (fmul fr b) g) 0x40C00000)
      let c0 := fdiv (fmul (fmul a b) g) 0x40000000
      let c1 := fneg (fdiv (fmul (fmul a fr) g) 0x40000000)
      let c2 := fdiv (fmul (fmul a fr) b) 0x40C00000
      tapValue s c d .cubic k =
        fadd (fadd (fadd (fmul cm (x (i - 1))) (fmul c0 (x i))) (fmul c1 (x (i + 1)))) (fmul c2 (x (i + 2)))))

/-- POP in range (R213): the value of the tap read goes to `rd`; in mode ALLPASS it also stays in the slot; nothing else
changes, the write index and every byte of memory included. -/
def Obligations.PopReads : Prop :=
  ∀ (s : State) (rd ra : Reg) (c : Chan) (m : Interp) (tap : BitVec 2),
    s.ports.port = .a → tap ≠ 3 → c.toNat < s.csr.nch.toNat → prepared s = true → delayInRange s (reg s ra) m = true →
    let v := tapValue s c (reg s ra) m (slotOf tap)
    let z := apzSet (dline s c).apz (slotOf tap) v
    exec (.pop rd ra c m tap) s = .next
      { s with
        d := s.d.set rd.toNat v rd.isLt
        dls := if m = .allpass then s.dls.set c.toNat { dline s c with apz := z } c.isLt else s.dls
        events := responded s v }

/-- When a tap read is in range (R206 (a), (b), (c)). -/
def Obligations.DelayPreconditions : Prop :=
  ∀ (s : State) (d : Word),
    let i := f2u (ffloor d)
    let whole := feq (fsub d (ffloor d)) fZero = true
    let a := isFinite d = true ∧ fle fZero d = true ∧ flt d (u2f s.csr.cap.toNat) = true
    (delayInRange s d .none = true ↔ a ∧ f2u (frint d) ≤ s.csr.cap.toNat - 1 ∧ 0 < s.csr.cap.toNat) ∧
    (delayInRange s d .linear = true ↔ a ∧ (whole ∨ i + 1 < s.csr.cap.toNat)) ∧
    (delayInRange s d .allpass = true ↔ a ∧ (whole ∨ i + 1 < s.csr.cap.toNat)) ∧
    (delayInRange s d .cubic = true ↔ a ∧ (whole ∨ (1 ≤ i ∧ i + 2 < s.csr.cap.toNat)))

/-- The round trip of the delay line (R212): a word written at sample step t is returned, bits unchanged, by a tap read with
delay d at step t + d, for every integer d below CAP, in every mode, whatever is written in between. -/
def Obligations.DelayLineRoundTrip : Prop :=
  ∀ (s : State) (c : Chan) (v : Word) (ws : List Word) (mode : Interp) (k : Slot),
    memoryWf s.mem → (dline s c).w < cap s → cap s ≤ 2 ^ 24 → ws.length < cap s →
    ∃ u, tapRead c (u2f ws.length) mode k (laterSteps c ws (storeSample c v s)) = .ok (v, u)

/-! ## Waveshaper (44_waveshaper.md) -/

/-- SHAPE and DIST (R230, 45_effect_kernels.md R268): the transfer function of the mode, in DIST after the gain, to `rd`; one
draw consumed in mode 6; nothing else changes. -/
def Obligations.ShapeAndDist : Prop :=
  ∀ (s : State) (rd ra : Reg), s.ports.port = .a → ShapeRuns s →
    ∀ row ∈ [(Instr.shape rd ra, reg s ra), (.dist rd ra, fmul (reg s ra) s.csr.kgain)],
      let y := shape s s.csr.mode row.2
      exec row.1 s = .next
        { s with
          d := s.d.set rd.toNat y rd.isLt
          events := responded s y
          draws := if s.csr.mode = 6 then s.draws + 1 else s.draws }

/-- The transfer functions of modes 1 to 7 (R232 to R238), as the spec writes them. A draw lies in [0, 1) (10_state.md R59),
so that mode 6 always drops with a probability of 1.0 or more, and never with one that is not above zero or a NaN. -/
def Obligations.TransferFunctions : Prop :=
  ∀ (s : State) (x : Word),
    shape s 1 x = fmul 0x3F22F983 (fatan s.cfg (fmul s.csr.kdrive x)) ∧
    (let a := s.csr.kcubic
    let xm := fdiv fOne (fsqrt (fmul 0x40400000 a))
    let xc := if fgt a fZero then clampf x (fneg xm) xm else x
    shape s 2 x = fsub xc (fmul a (fmul (fmul xc xc) xc))) ∧
    shape s 3 x = fsub (fabs (fmodt (fadd (fmul 0x40000000 x) 0x40000000) 0x40800000)) fOne ∧
    (let a := fabs x
    let lo := s.csr.kloth
    let hi := s.csr.khith
    let signed := fun m : Word => if x.getLsbD 31 then fneg m else m
    (flt a lo = true → shape s 4 x = x) ∧
    (flt a lo = false → fle a hi = true → s.cfg.gapClamp = .low → shape s 4 x = signed lo) ∧
    (flt a lo = false → fle a hi = true → s.cfg.gapClamp = .nearer →
      shape s 4 x = signed (if fle (fsub a lo) (fsub hi a) then lo else hi)) ∧
    (flt a lo = false → fle a hi = false → fgt a hi = true → shape s 4 x = signed (fsub a (fsub hi lo))) ∧
    (flt a lo = false → fle a hi = false → fgt a hi = false → shape s 4 x = 0x7FC00000)) ∧
    (let q := pow2 (s.csr.kbits.toNat - 1)
    shape s 5 x = fdiv (fceil (fmul x q)) q) ∧
    shape s 6 x = (if flt (draw s) s.csr.kpdrop then 0x00000000 else fmul x s.csr.kdgain) ∧
    (fle 0x00000000 (draw s) = true ∧ flt (draw s) 0x3F800000 = true) ∧
    (fge s.csr.kpdrop 0x3F800000 = true → shape s 6 x = 0x00000000) ∧
    (fle s.csr.kpdrop 0x00000000 = true ∨ isNaN s.csr.kpdrop = true → shape s 6 x = fmul x s.csr.kdgain) ∧
    (let T := s.csr.kfold
    shape s 7 x = if fgt x T then fsub T (fsub x T) else if flt x (fneg T) then fsub (fneg T) (fadd x T) else x)

/-- An unknown mode passes the word through, bits unchanged (R239); no flag is set and the command is not suppressed. MODE
is 0 after reset. -/
def Obligations.UnknownModePassesThrough : Prop :=
  (∀ (s : State) (m x : Word), ¬ (1 ≤ m.toNat ∧ m.toNat ≤ 7) → shape s m x = x) ∧
  (∀ (s : State) (rd ra : Reg), s.ports.port = .a → ¬ (1 ≤ s.csr.mode.toNat ∧ s.csr.mode.toNat ≤ 7) → s.cfg.wf = true →
    exec (.shape rd ra) s = .next
      { s with d := s.d.set rd.toNat (reg s ra) rd.isLt, events := responded s (reg s ra) }) ∧
  (∀ cfg, (State.resetWith cfg).csr.mode = 0)

/-- Mode 1 never leaves [-1, 1] (R232; 00_scope.md R23): for every non-NaN argument t, with either instance of the arctangent. -/
def Obligations.SoftClipIsBounded : Prop :=
  ∀ (cfg : Config) (k x : Word), isNaN (fmul k x) = false →
    fle 0xBF800000 (shapeAtan cfg k x) = true ∧ fle (shapeAtan cfg k x) 0x3F800000 = true

/-- The identity settings of modes 4, 6 and 7 (R241): the threshold gap with equal thresholds that are not NaN and have a clear
sign bit, for every number; the dropout with probability +0.0 and gain 1.0, for every number and every draw; the
wavefold with threshold +inf, for every word. -/
def Obligations.IdentitySettings : Prop :=
  (∀ (g : GapClamp) (th x : Word), isNaN th = false → f32Neg th = false → isNaN x = false → shapeGap g th th x = x) ∧
  (∀ (n : Nat) (x : Word), isNaN x = false → shapeDropout 0x00000000 fOne (drawAt n) x = x) ∧
  (∀ x : Word, shapeFold 0x7F800000 x = x)

/-- THR writes the derived threshold to the one register its selector names (R245); nothing else changes. -/
def Obligations.ThrDerives : Prop :=
  ∀ (s : State) (ra : Reg), s.ports.port = .a →
    let g := if fge (reg s ra) s.cfg.epsDiv then reg s ra else s.cfg.epsDiv
    exec (.thr 0 ra) s = .next
      { s with csr := { s.csr with kloth := fdiv s.cfg.baseLow g }, events := responded s 0 } ∧
    exec (.thr 1 ra) s = .next
      { s with csr := { s.csr with khith := fdiv s.cfg.baseHigh g }, events := responded s 0 } ∧
    exec (.thr 2 ra) s = .next
      { s with csr := { s.csr with kfold := fdiv s.cfg.baseFold g }, events := responded s 0 } ∧
    exec (.thr 3 ra) s = .next
      { s with csr := { s.csr with status := s.csr.status ||| 2 }, events := responded s 0 }

/-! ## Effect kernels (45_effect_kernels.md) -/

/-- TREM (R263), and its identity at depth +0.0: for every finite LFO value the output is `fmul(x, KGAIN)`. -/
def Obligations.TremComputes : Prop :=
  ∀ (s : State) (rd ra rb : Reg), s.ports.port = .a →
    let e := fadd (fmul s.csr.kdepth (reg s rb)) (fsub fOne s.csr.kdepth)
    let y := fmul (fmul (reg s ra) e) s.csr.kgain
    exec (.trem rd ra rb) s = .next { s with d := s.d.set rd.toNat y rd.isLt, events := responded s y } ∧
    (s.csr.kdepth = 0 → isFinite (reg s rb) = true → y = fmul (reg s ra) s.csr.kgain)

/-- DLY (R260, R261, R264) with a delay in range: dry written, tap read, scaled by the feedback, dry + wet written to the same
slot, the index advanced, the mix and the gain to `rd`. Every byte outside the word stored to reads as before. The byte
addresses are the model's own (log 8). -/
def Obligations.DlyComputes : Prop :=
  ∀ (s : State) (rd ra : Reg) (c : Chan),
    s.ports.port = .a → c.toNat < s.csr.nch.toNat → prepared s = true → memoryWf s.mem →
    delayInRange s s.csr.kdelay (kernelInterp s) = true →
    let dry := reg s ra
    let tap := tapValue (storeSample c dry s) c s.csr.kdelay (kernelInterp s) .t0
    let wet := fmul s.csr.kfb tap
    let y := fmul (fadd (fmul dry (fsub fOne s.csr.kmix)) (fmul wet s.csr.kmix)) s.csr.kgain
    ∃ m, exec (.dly rd ra c) s = .next
        { s with
          d := s.d.set rd.toNat y rd.isLt
          dls := s.dls.set c.toNat
            { w := ((dline s c).w + 1) % s.csr.cap.toNat
              apz := if kernelInterp s = .allpass then { (dline s c).apz with t0 := tap } else (dline s c).apz } c.isLt
          mem := m
          events := responded s y } ∧
      readWord m (dlAddr c (dline s c).w) = fadd dry wet ∧ SameOutside (dlAddr c (dline s c).w) s.mem m

/-- CHOR (R261, R266) with every delay in range, for each tap count: dry written, the taps read at the fractions of the base
delay times the factor, averaged, the index advanced, the mix and the gain to `rd`; no write-back. In mode ALLPASS tap j
stays in slot j - 1. The reads do not disturb each other. The byte addresses are the model's own (log 8). -/
def Obligations.ChorComputes : Prop :=
  ∀ (s : State) (rd ra rb : Reg) (c : Chan) (n : Nat),
    s.ports.port = .a → c.toNat < s.csr.nch.toNat → prepared s = true → memoryWf s.mem →
    s.csr.kntap.toNat = n → 1 ≤ n → n ≤ 3 →
    let mode := kernelInterp s
    let dry := reg s ra
    let g := fadd fOne (fmul (reg s rb) (fdiv s.csr.kdepth (u2f n)))
    let d := fun j : Nat => fmul (fdiv s.csr.kdelay (u2f j)) g
    (∀ j, 1 ≤ j → j ≤ n → delayInRange s (d j) mode = true) →
    let s1 := storeSample c dry s
    let t1 := tapValue s1 c (d 1) mode .t0
    let t2 := tapValue s1 c (d 2) mode .t1
    let t3 := tapValue s1 c (d 3) mode .t2
    let sum := if n = 1 then t1 else if n = 2 then fadd t1 t2 else fadd (fadd t1 t2) t3
    let wet := fdiv sum (u2f n)
    let y := fmul (fadd (fmul dry (fsub fOne s.csr.kmix)) (fmul wet s.csr.kmix)) s.csr.kgain
    let z := (dline s c).apz
    ∃ m, exec (.chor rd ra rb c) s = .next
        { s with
          d := s.d.set rd.toNat y rd.isLt
          dls := s.dls.set c.toNat
            { w := ((dline s c).w + 1) % s.csr.cap.toNat
              apz := if mode = .allpass then
                  { t0 := t1, t1 := if 2 ≤ n then t2 else z.t1, t2 := if n = 3 then t3 else z.t2 }
                else z } c.isLt
          mem := m
          events := responded s y } ∧
      readWord m (dlAddr c (dline s c).w) = dry ∧ SameOutside (dlAddr c (dline s c).w) s.mem m

/-! ## State codec (46_state_codec.md) -/

/-- ENC (R281, R282; 20_memory.md R75). The image is 4·N_PARAM bytes, parameter p at offset 4p in the configured byte order,
the last byte marked and no other. With a consumer that takes every byte it is emitted and the answer is 4·N_PARAM; with
one that takes only some, those are emitted and the port keeps the rest (log 10). A later step in which the C-port moves,
with or without an A-port packet waiting (log 3), emits of the kept bytes, in order, as many as the consumer takes; with
the last of them the answer 4·N_PARAM comes and the port is idle again. Nothing else changes. -/
def Obligations.EncEmitsImage : Prop :=
  ∀ (s : State), s.cfg.nParam ≤ 31 →
    (image s).length = 4 * s.cfg.nParam ∧
    (∀ p k, p < s.cfg.nParam → k < 4 →
      (image s)[4 * p + k]? = some
        { byte := (param s (BitVec.ofNat 5 p)).extractLsb' (if s.cfg.stateEndian = .le then 8 * k else 24 - 8 * k) 8
          last := decide (p + 1 = s.cfg.nParam ∧ k = 3) }) ∧
    (s.ports.port = .c →
      (4 * s.cfg.nParam ≤ s.ports.soRoom →
        exec .enc s = .next
          { s with
            ports := { s.ports with stream := .idle, soRoom := s.ports.soRoom - 4 * s.cfg.nParam }
            events := { s.events with
              rsps := s.events.rsps ++ [{ port := .c, word := BitVec.ofNat 32 (4 * s.cfg.nParam) }]
              so := s.events.so ++ image s } }) ∧
      (s.ports.soRoom < 4 * s.cfg.nParam →
        exec .enc s = .next
          { s with
            ports := { s.ports with stream := .enc ((image s).drop s.ports.soRoom), soRoom := 0 }
            events := { s.events with so := s.events.so ++ (image s).take s.ports.soRoom } })) ∧
    (∀ rest, CPortServed s → s.ports.stream = .enc rest → 0 < s.ports.soRoom →
      (rest.length ≤ s.ports.soRoom →
        step s = .next
          { servingC s with
            ports := { (servingC s).ports with stream := .idle, soRoom := s.ports.soRoom - rest.length }
            events := { s.events with
              rsps := s.events.rsps ++ [{ port := .c, word := BitVec.ofNat 32 (4 * s.cfg.nParam) }]
              so := s.events.so ++ rest } }) ∧
      (s.ports.soRoom < rest.length →
        step s = .next
          { servingC s with
            ports := { (servingC s).ports with stream := .enc (rest.drop s.ports.soRoom), soRoom := 0 }
            events := { s.events with so := s.events.so ++ rest.take s.ports.soRoom } }))

/-- The first step of DEC (R283, R284): four bytes are one group, handed to the setter of parameter 0; a stream of one to
three bytes is discarded with the answer 0; one to three bytes with none marked last are kept, and none at all is waited
for (log 10). Nothing else changes. -/
def Obligations.DecTakesAGroup : Prop :=
  ∀ (s : State) (b0 b1 b2 b3 : StreamByte) (rest : List StreamByte),
    s.ports.port = .c → 0 < s.cfg.nParam → b0.last = false → b1.last = false → b2.last = false →
    let w := if s.cfg.stateEndian = .le then b3.byte ++ b2.byte ++ b1.byte ++ b0.byte
      else b0.byte ++ b1.byte ++ b2.byte ++ b3.byte
    let v := clampf w (paramMin s 0) (paramMax s 0)
    let cur := if isNaN w then s.cur else s.cur.set 0 v
    let notify := if isNaN w then s.events.notify else s.events.notify ++ [{ p := 0, v := v }]
    let discarded : State := { s with ports := { s.ports with si := rest, stream := .idle }, events := responded s 0 }
    (s.ports.si = b0 :: b1 :: b2 :: b3 :: rest → b3.last = false →
      exec .dec s = .next
        { s with
          cur := cur
          ports := { s.ports with si := rest, stream := .dec 1 [] }
          events := { s.events with notify := notify } }) ∧
    (s.ports.si = b0 :: b1 :: b2 :: b3 :: rest → b3.last = true →
      exec .dec s = .next
        { s with
          cur := cur
          ports := { s.ports with si := rest, stream := .idle }
          events := { s.events with rsps := s.events.rsps ++ [{ port := .c, word := 1 }], notify := notify } }) ∧
    (s.ports.si = { b0 with last := true } :: rest → exec .dec s = .next discarded) ∧
    (s.ports.si = b0 :: { b1 with last := true } :: rest → exec .dec s = .next discarded) ∧
    (s.ports.si = b0 :: b1 :: { b2 with last := true } :: rest → exec .dec s = .next discarded) ∧
    (∀ bs : List StreamByte, bs.length ≤ 3 → (∀ b ∈ bs, b.last = false) → s.ports.si = bs →
      exec .dec s = .next { s with ports := { s.ports with si := [], stream := .dec 0 (bs.map (·.byte)) } })

/-- The later steps of DEC (R283, R284 (a), (b)), with n groups done and up to three bytes of the next one kept, whenever the
C-port moves, with or without an A-port packet waiting (log 3, log 10). The bytes that complete the group go to the setter
of parameter n, with the answer n + 1 if the last of them is marked. A group of one to three bytes that ends in the byte
marked last is discarded and the answer is n. Bytes that neither complete a group nor end the stream are kept. After
N_PARAM groups the bytes are discarded, whatever they are, and at the one marked last the answer is n. Nothing else
changes. -/
def Obligations.DecFollowsTheStream : Prop :=
  ∀ (s : State) (n : Nat) (pending : List Byte) (bs : List StreamByte),
    CPortServed s → s.cfg.nParam ≤ 31 → s.ports.stream = .dec n pending → (∀ b ∈ bs, b.last = false) →
    (∀ (x : StreamByte) (rest : List StreamByte) (b0 b1 b2 b3 : Byte),
      n < s.cfg.nParam → s.ports.si = bs ++ x :: rest →
      pending ++ bs.map (·.byte) ++ [x.byte] = [b0, b1, b2, b3] →
      let p : ParamIdx := BitVec.ofNat 5 n
      let w := if s.cfg.stateEndian = .le then b3 ++ b2 ++ b1 ++ b0 else b0 ++ b1 ++ b2 ++ b3
      let v := clampf w (paramMin s p) (paramMax s p)
      step s = .next
        { servingC s with
          cur := if isNaN w then s.cur else s.cur.set p.toNat v p.isLt
          ports := { (servingC s).ports with si := rest, stream := if x.last then .idle else .dec (n + 1) [] }
          events := { s.events with
            rsps := if x.last then s.events.rsps ++ [{ port := .c, word := BitVec.ofNat 32 (n + 1) }] else s.events.rsps
            notify := if isNaN w then s.events.notify else s.events.notify ++ [{ p := p, v := v }] } }) ∧
    (∀ (x : StreamByte) (rest : List StreamByte),
      (s.cfg.nParam ≤ n ∨ pending.length + bs.length < 3) → s.ports.si = bs ++ x :: rest → x.last = true →
      step s = .next
        { servingC s with
          ports := { (servingC s).ports with si := rest, stream := .idle }
          events := { s.events with rsps := s.events.rsps ++ [{ port := .c, word := BitVec.ofNat 32 n }] } }) ∧
    (bs ≠ [] → s.ports.si = bs →
      (n < s.cfg.nParam → pending.length + bs.length ≤ 3 →
        step s = .next
          { servingC s with
            ports := { (servingC s).ports with si := [], stream := .dec n (pending ++ bs.map (·.byte)) } }) ∧
      (s.cfg.nParam ≤ n →
        step s = .next { servingC s with ports := { (servingC s).ports with si := [], stream := .dec n pending } }))

/-- The round-trip law (R285): a DEC fed exactly the bytes an ENC emits, in a machine with the same parameter table and byte
order, leaves every parameter as the ENC found it, bit for bit, whatever the parameters were before, emits N_PARAM
events and answers N_PARAM. That it takes N_PARAM steps, one group a step, is the model's choice (log 10). -/
def Obligations.CodecRoundTrip : Prop :=
  ∀ (s u : State), s.cfg.wf = true → ParamsInRange s →
    u.cfg.ptab = s.cfg.ptab → u.cfg.stateEndian = s.cfg.stateEndian →
    u.ports.rst = false → u.ports.aCmds = [] → u.ports.cCmds = [encode .dec] → u.ports.stream = .idle →
    u.ports.si = image s →
    ∃ t, Host.Core.run core s.cfg.nParam u = .next t ∧
      (∀ p, paramExists s.cfg p = true → param t p = param s p) ∧
      t.events.notify.length = u.events.notify.length + s.cfg.nParam ∧
      lastResponse t = some { port := .c, word := BitVec.ofNat 32 s.cfg.nParam } ∧
      t.ports.si = [] ∧ t.ports.stream = .idle ∧
      t.d = u.d ∧ t.csr = u.csr ∧ t.lfos = u.lfos ∧ t.dls = u.dls ∧ t.mem = u.mem

/-! ## Frames, invariants and whole-machine rules -/

/-- Whatever the command, when `exec` answers a next state: a register other than the destination is as before; every byte
of memory is as before, but those of the word at the write index for a command that stores, and those a PREPARE fills;
the configuration, the packets presented and the reset input are as before. The byte addresses are the model's own
(log 8). -/
def Obligations.CommandFrame : Prop :=
  ∀ (i : Instr) (s t : State), exec i s = .next t →
    (∀ r, destOf i ≠ some r → reg t r = reg s r) ∧
    (storeChannel i = none → isPrepare i = false → ∀ a, readByte t.mem a = readByte s.mem a) ∧
    (∀ c, storeChannel i = some c → SameOutside (storeAddr s c) s.mem t.mem) ∧
    (∀ c, advances i ≠ some c → isPrepare i = false → (dline t c).w = (dline s c).w) ∧
    t.cfg = s.cfg ∧ t.ports.aCmds = s.ports.aCmds ∧ t.ports.cCmds = s.ports.cCmds ∧ t.ports.rst = s.ports.rst ∧
    t.ports.port = s.ports.port

/-- SR, BLK, NCH and CAP are written by no command but PREPARE, and by no PREPARE that leaves PREPARED at 0 or PERR at 1
(10_state.md R38); CTRL, MODE and the coefficients are written by CSRW and THR only (R64); PREPARED and PERR by PREPARE
and RELEASE only (R36). -/
def Obligations.ControlRegisterFrame : Prop :=
  ∀ (i : Instr) (s t : State), exec i s = .next t →
    ((i.op ≠ .prepare ∨ prepared t = false ∨ prepareError t = true) →
      t.csr.sr = s.csr.sr ∧ t.csr.blk = s.csr.blk ∧ t.csr.nch = s.csr.nch ∧ t.csr.cap = s.csr.cap) ∧
    (i.op ≠ .csrw → i.op ≠ .thr →
      t.csr = { s.csr with
        status := t.csr.status, sr := t.csr.sr, blk := t.csr.blk, nch := t.csr.nch, cap := t.csr.cap }) ∧
    (i.op ≠ .prepare → i.op ≠ .release → prepared t = prepared s ∧ prepareError t = prepareError s)

/-- The invariant of the parameter store (10_state.md R51): with a well-formed configuration it holds after reset, and every
step keeps it. A parameter holds its old word or, after a step that stores it, the whole word of that one write, the one
NOTIFY carries; and a GETP answers the whole word. -/
def Obligations.ParametersStayInRange : Prop :=
  (∀ cfg : Config, cfg.wf = true → ParamsInRange (State.resetWith cfg)) ∧
  (∀ s t : State, s.cfg.wf = true → ParamsInRange s → step s = .next t → ParamsInRange t) ∧
  (∀ s t : State, step s = .next t → s.ports.rst = false → ∀ p : ParamIdx,
    param t p = param s p ∨ t.events.notify = s.events.notify ++ [{ p := p, v := param t p }]) ∧
  (∀ (s : State) (p : ParamIdx), p.toNat < s.cfg.nParam →
    ∃ t, exec (.getp 0 p) s = .next t ∧ lastResponse t = some { port := s.ports.port, word := param s p })

/-- Every step keeps the invariants (10_state.md R36 to R38, R41, R43, R51, R53, R54): a well-formed configuration, the
canonical form of the memory (the model's own, log 8), the parameter ranges, the legal values of the control registers,
the geometry of a prepared machine, the legal frequencies and waveforms. -/
def Obligations.StepKeepsLegal : Prop := ∀ s t : State, Legal s → step s = .next t → Legal t

/-- The invariants hold at the reset state, and after reset in every well-formed configuration. -/
def Obligations.ResetIsLegal : Prop :=
  Legal State.reset ∧ ∀ cfg : Config, cfg.wf = true → Legal (State.resetWith cfg)

/-- Where the model stops at a phase that is not finite, every phase stays finite and in [0, TWO_PI) (10_state.md R53,
42_oscillator.md R185 (a), (f)). -/
def Obligations.PhasesStayWrapped : Prop :=
  ∀ s t : State, s.cfg.openPoints = .stop → Legal s → PhasesWrapped s → step s = .next t → PhasesWrapped t

/-- What the control agent sees of the audio agent: nothing (20_memory.md R84). A C-port command always completes, and its
effects on the parameters, the ports and the histories are the same in any two states that agree on the configuration,
the parameters, the ports and the histories; and it leaves the audio agent's state alone, ILL apart (10_state.md R61). -/
def Obligations.ControlPortIsolation : Prop :=
  (∀ (i : Instr) (s u : State), s.ports.port = .c → u.cfg = s.cfg → u.cur = s.cur → u.ports = s.ports →
    u.events = s.events →
    ∃ t v, exec i s = .next t ∧ exec i u = .next v ∧ v.cur = t.cur ∧ v.ports = t.ports ∧ v.events = t.events) ∧
  (∀ (i : Instr) (s t : State), s.ports.port = .c → exec i s = .next t →
    t.d = s.d ∧ t.lfos = s.lfos ∧ t.dls = s.dls ∧ t.mem = s.mem ∧
      (t.csr = s.csr ∨ t.csr = { s.csr with status := s.csr.status ||| 2 }))

/-- Commands stop only at the points of 60_exceptions.md R296, and only where the configuration asks the model to stop
there; a legal command is met in each case. -/
def Obligations.StopsOnlyAtOpenPoints : Prop :=
  ∀ (i : Instr) (s : State),
    (∀ f, exec i s = .fault f → s.cfg.openPoints = .stop ∧ illegality i s = none ∧
      ((f = .nonfinitePhase ∧ ∃ rd l, i = .lnext rd l ∧ isFinite (advancedPhase s l) = false) ∨
        (f = .delayRange ∧
          ((∃ rd ra c m tap, i = .pop rd ra c m tap ∧ delayInRange s (reg s ra) m = false) ∨
            (∃ rd ra c, i = .dly rd ra c ∧ delayInRange s s.csr.kdelay (kernelInterp s) = false) ∨
            ∃ rd ra rb c j, i = .chor rd ra rb c ∧ 1 ≤ j ∧ j ≤ 3 ∧
              delayInRange s (chorDelay s (reg s rb) j) (kernelInterp s) = false)))) ∧
    (∀ r, exec i s = .refused r → r = .unspecMode ∧ s.cfg.openPoints = .stop ∧ illegality i s = none ∧
      (i.op = .shape ∨ i.op = .dist) ∧ s.cfg.unspecMode = some s.csr.mode.toNat)

/-- Where the configuration asks the model to go on as the hardware does (log 4), every step answers a next state: the
machine has no trap (60_exceptions.md R290, R298). -/
def Obligations.RunningMachineNeverStops : Prop :=
  ∀ s : State, s.cfg.openPoints = .run → ∃ t, step s = .next t

/-- The model stops where 60_exceptions.md R296 asks a model to, when the configuration says so (log 4): LNEXT with an
advanced phase that is not finite (42_oscillator.md R186), POP, DLY and CHOR with a delay out of range (43_delay_line.md
R207), SHAPE and DIST in the mode named as not designed (44_waveshaper.md R244). -/
def Obligations.OpenPointsStop : Prop :=
  ∀ (s : State) (rd ra rb : Reg) (l c : Chan) (m : Interp) (tap : BitVec 2),
    s.ports.port = .a → s.cfg.openPoints = .stop →
    (prepared s = true → l.toNat < s.cfg.nCh → isFinite (advancedPhase s l) = false →
      exec (.lnext rd l) s = .fault .nonfinitePhase) ∧
    (prepared s = true → c.toNat < s.csr.nch.toNat →
      (tap ≠ 3 → delayInRange s (reg s ra) m = false → exec (.pop rd ra c m tap) s = .fault .delayRange) ∧
      (delayInRange s s.csr.kdelay (kernelInterp s) = false → exec (.dly rd ra c) s = .fault .delayRange) ∧
      (∀ j, 1 ≤ j → j ≤ s.csr.kntap.toNat → s.csr.kntap.toNat ≤ 3 →
        delayInRange s (chorDelay s (reg s rb) j) (kernelInterp s) = false →
        exec (.chor rd ra rb c) s = .fault .delayRange)) ∧
    (s.cfg.unspecMode = some s.csr.mode.toNat →
      exec (.shape rd ra) s = .refused .unspecMode ∧ exec (.dist rd ra) s = .refused .unspecMode)

/-- Where the configuration asks the model to go on as the hardware does (log 4): LNEXT with a phase that is not finite leaves
and answers the canonical NaN (42_oscillator.md R186); POP out of range answers a free value, in mode ALLPASS leaves
another in the slot, and changes nothing else (43_delay_line.md R207; log 5). -/
def Obligations.OpenPointsRun : Prop :=
  ∀ (s : State) (rd ra : Reg) (l c : Chan) (m : Interp) (tap : BitVec 2),
    s.ports.port = .a → s.cfg.openPoints = .run → prepared s = true →
    (l.toNat < s.cfg.nCh → isFinite (advancedPhase s l) = false →
      exec (.lnext rd l) s = .next
        { s with
          d := s.d.set rd.toNat 0x7FC00000 rd.isLt
          lfos := s.lfos.set l.toNat { lfo s l with phase := 0x7FC00000 } l.isLt
          events := responded s 0x7FC00000 }) ∧
    (c.toNat < s.csr.nch.toNat → tap ≠ 3 → delayInRange s (reg s ra) m = false →
      ∃ v z n, exec (.pop rd ra c m tap) s = .next
        { s with
          d := s.d.set rd.toNat v rd.isLt
          dls := if m = .allpass then
              s.dls.set c.toNat { dline s c with apz := apzSet (dline s c).apz (slotOf tap) z } c.isLt
            else s.dls
          events := responded s v
          unspecs := n })

end
end

