-- ==== Sys2Proof/Laws/Codec.lean ====
section
/-! SUPPORT. What the scan of a DEC step does: bytes that complete no group are kept, a short group that ends the stream is
discarded, and so is all that follows the last group. -/

namespace Sys2Proof.Machine

/-- While three bytes of a group are not exceeded, bytes not marked last are kept. -/
theorem decScan_keeps {cfg : Config} {n : Nat} (hn : n < cfg.nParam) (tl : List StreamByte) :
    ∀ (bs : List StreamByte) (pending : List Byte), (∀ b ∈ bs, b.last = false) → pending.length + bs.length ≤ 3 →
      decScan cfg n pending (bs ++ tl) = decScan cfg n (pending ++ bs.map (·.byte)) tl
  | [], pending, _, _ => by simp
  | b :: bs, pending, hb, hl => by
    simp only [List.mem_cons, forall_eq_or_imp] at hb
    simp only [List.length_cons] at hl
    have ih := decScan_keeps hn tl bs (pending ++ [b.byte]) hb.2 (by simp; omega)
    rw [List.cons_append, decScan, if_pos hn]
    · simp [hb.1, ih]
    · rintro b0 b1 b2 rfl
      simp at hl

/-- The fourth byte completes the group, with the bytes in the order they came. -/
theorem decScan_completes {cfg : Config} {n : Nat} (hn : n < cfg.nParam) (b0 b1 b2 : Byte) (x : StreamByte)
    (rest : List StreamByte) :
    decScan cfg n [b0, b1, b2] (x :: rest) =
      { n := n + 1, pending := [], rest := rest
        group := some (BitVec.ofNat 5 n, wordOfBytes cfg.stateEndian b0 b1 b2 x.byte), done := x.last } := by
  simp [decScan, hn]

/-- A byte marked last that completes no group ends the stream. -/
theorem decScan_ends {cfg : Config} {n : Nat} {pending : List Byte} {x : StreamByte} (hx : x.last = true)
    (h : cfg.nParam ≤ n ∨ pending.length ≠ 3) (rest : List StreamByte) :
    decScan cfg n pending (x :: rest) = { n := n, pending := [], rest := rest, group := none, done := true } := by
  by_cases hn : n < cfg.nParam
  · rw [decScan, if_pos hn, if_pos hx]
    rintro b0 b1 b2 rfl
    simp at h
    omega
  · simp [decScan, hn, hx]

/-- After `N_PARAM` groups bytes not marked last are passed over. -/
theorem decScan_skips {cfg : Config} {n : Nat} (hn : cfg.nParam ≤ n) (pending : List Byte) (tl : List StreamByte) :
    ∀ bs : List StreamByte, (∀ b ∈ bs, b.last = false) → decScan cfg n pending (bs ++ tl) = decScan cfg n pending tl
  | [], _ => rfl
  | b :: bs, hb => by
    simp only [List.mem_cons, forall_eq_or_imp] at hb
    simp [decScan, Nat.not_lt.2 hn, hb.1, decScan_skips hn pending tl bs hb.2]

end Sys2Proof.Machine
end

