-- ==== Sys2Proof/Laws/Encoding.lean ====
section
/-! SUPPORT. The fields of a control word and of a packet, read back (30_encoding.md R103, R104). -/

namespace Sys2Proof

@[simp] theorem packetCw_append (cw imm : Word) : packetCw (cw ++ imm : BitVec (32 + 32)) = cw := by
  apply BitVec.eq_of_getLsbD_eq
  intro i hi
  simp only [packetCw, BitVec.getLsbD_extractLsb', BitVec.getLsbD_append, hi, decide_true, Bool.true_and]
  simp

@[simp] theorem packetImm_append (cw imm : Word) : packetImm (cw ++ imm : BitVec (32 + 32)) = imm := by
  apply BitVec.eq_of_getLsbD_eq
  intro i hi
  simp only [packetImm, BitVec.getLsbD_extractLsb', BitVec.getLsbD_append, hi, decide_true, Bool.true_and]
  simp [hi]

@[simp] theorem packetCw_encode (i : Instr) : packetCw (encode i) = encodeCw i := packetCw_append _ _

@[simp] theorem packetImm_encode (i : Instr) : packetImm (encode i) = encodeImm i := packetImm_append _ _

variable (op : Op) (rd ra rb rc : Reg) (ch : Chan) (f : BitVec 8)

@[simp] theorem cwOp_controlWord : cwOp (controlWord op rd ra rb rc ch f) = op.code := by
  apply BitVec.eq_of_getLsbD_eq
  intro i hi
  simp only [cwOp, controlWord, BitVec.getLsbD_extractLsb', BitVec.getLsbD_append, hi, decide_true, Bool.true_and]
  simp [show ¬ 24 + i < 8 by omega, show ¬ 24 + i - 8 < 4 by omega, show ¬ 24 + i - 8 - 4 < 3 by omega,
    show ¬ 24 + i - 8 - 4 - 3 < 3 by omega, show ¬ 24 + i - 8 - 4 - 3 - 3 < 3 by omega,
    show ¬ 24 + i - 8 - 4 - 3 - 3 - 3 < 3 by omega, show 24 + i - 8 - 4 - 3 - 3 - 3 - 3 = i by omega]

@[simp] theorem cwRd_controlWord : cwRd (controlWord op rd ra rb rc ch f) = rd := by
  apply BitVec.eq_of_getLsbD_eq
  intro i hi
  simp only [cwRd, controlWord, BitVec.getLsbD_extractLsb', BitVec.getLsbD_append, hi, decide_true, Bool.true_and]
  simp [show ¬ 21 + i < 8 by omega, show ¬ 21 + i - 8 < 4 by omega, show ¬ 21 + i - 8 - 4 < 3 by omega,
    show ¬ 21 + i - 8 - 4 - 3 < 3 by omega, show ¬ 21 + i - 8 - 4 - 3 - 3 < 3 by omega,
    show 21 + i - 8 - 4 - 3 - 3 - 3 = i by omega, hi]

@[simp] theorem cwRa_controlWord : cwRa (controlWord op rd ra rb rc ch f) = ra := by
  apply BitVec.eq_of_getLsbD_eq
  intro i hi
  simp only [cwRa, controlWord, BitVec.getLsbD_extractLsb', BitVec.getLsbD_append, hi, decide_true, Bool.true_and]
  simp [show ¬ 18 + i < 8 by omega, show ¬ 18 + i - 8 < 4 by omega, show ¬ 18 + i - 8 - 4 < 3 by omega,
    show ¬ 18 + i - 8 - 4 - 3 < 3 by omega, show 18 + i - 8 - 4 - 3 - 3 = i by omega, hi]

@[simp] theorem cwRb_controlWord : cwRb (controlWord op rd ra rb rc ch f) = rb := by
  apply BitVec.eq_of_getLsbD_eq
  intro i hi
  simp only [cwRb, controlWord, BitVec.getLsbD_extractLsb', BitVec.getLsbD_append, hi, decide_true, Bool.true_and]
  simp [show ¬ 15 + i < 8 by omega, show ¬ 15 + i - 8 < 4 by omega, show ¬ 15 + i - 8 - 4 < 3 by omega,
    show 15 + i - 8 - 4 - 3 = i by omega, hi]

@[simp] theorem cwRc_controlWord : cwRc (controlWord op rd ra rb rc ch f) = rc := by
  apply BitVec.eq_of_getLsbD_eq
  intro i hi
  simp only [cwRc, controlWord, BitVec.getLsbD_extractLsb', BitVec.getLsbD_append, hi, decide_true, Bool.true_and]
  simp [show ¬ 12 + i < 8 by omega, show ¬ 12 + i - 8 < 4 by omega, show 12 + i - 8 - 4 = i by omega, hi]

@[simp] theorem cwCh_controlWord : cwCh (controlWord op rd ra rb rc ch f) = ch := by
  apply BitVec.eq_of_getLsbD_eq
  intro i hi
  simp only [cwCh, controlWord, BitVec.getLsbD_extractLsb', BitVec.getLsbD_append, hi, decide_true, Bool.true_and]
  simp [show ¬ 8 + i < 8 by omega, show 8 + i - 8 = i by omega, hi]

@[simp] theorem cwCsr_controlWord : cwCsr (controlWord op rd ra rb rc ch f) = f := by
  apply BitVec.eq_of_getLsbD_eq
  intro i hi
  simp only [cwCsr, controlWord, BitVec.getLsbD_extractLsb', BitVec.getLsbD_append, hi, decide_true, Bool.true_and]
  simp [hi]

/-- The row of an opcode byte is found by that byte. -/
@[simp] theorem opOf_code : opOf op.code = some op := by
  cases op <;> rfl

/-- An opcode byte names at most one row. -/
theorem code_of_opOf {code : BitVec 8} {op : Op} (h : opOf code = some op) : op.code = code := by
  revert code op
  decide

end Sys2Proof
end

