-- ==== Sys2Proof/Laws/Memory.lean ====
section
/-! SUPPORT. The laws of the sample memory: the canonical form is kept by every operation, a byte or word written reads
back, and every other byte reads as before (20_memory.md R71 to R73). -/

namespace Sys2Proof.Machine

/-! ## Bytes -/

@[simp] theorem readByte_nil (a : Nat) : readByte [] a = 0 := rfl

/-- An address below every listed one reads as zero. -/
theorem readByte_of_lt {m : Memory} {a : Nat} (h : ∀ x ∈ m, a < x.1) : readByte m a = 0 := by
  induction m with
  | nil => rfl
  | cons x m ih =>
    have hx : x.1 ≠ a := Nat.ne_of_gt (h x (by simp))
    simp only [readByte, hx, if_false]
    exact ih fun y hy => h y (List.mem_cons_of_mem _ hy)

theorem memoryWf_tail {x : Host.Cell} {m : Memory} (h : memoryWf (x :: m)) : memoryWf m :=
  ⟨(List.pairwise_cons.mp h.1).2, fun y hy => h.2 y (List.mem_cons_of_mem _ hy)⟩

theorem memoryWf_head {x : Host.Cell} {m : Memory} (h : memoryWf (x :: m)) : ∀ y ∈ m, x.1 < y.1 :=
  (List.pairwise_cons.mp h.1).1

/-- What `writeByte` lists: the old entries at other addresses, and the new one where it is not zero. -/
theorem mem_writeByte {m : Memory} {a : Nat} {v : Byte} {x : Host.Cell} (hx : x ∈ writeByte m a v) :
    x ∈ m ∨ (x = (a, v) ∧ v ≠ 0) := by
  induction m with
  | nil =>
    simp only [writeByte] at hx
    split at hx
    · simp at hx
    · exact .inr ⟨by simpa using hx, ‹_›⟩
  | cons y m ih =>
    simp only [writeByte] at hx
    split at hx
    · split at hx
      · exact .inl hx
      · rcases List.mem_cons.mp hx with rfl | h
        · exact .inr ⟨rfl, ‹_›⟩
        · exact .inl h
    · split at hx
      · split at hx
        · exact .inl (List.mem_cons_of_mem _ hx)
        · rcases List.mem_cons.mp hx with rfl | h
          · exact .inr ⟨rfl, ‹_›⟩
          · exact .inl (List.mem_cons_of_mem _ h)
      · rcases List.mem_cons.mp hx with rfl | h
        · exact .inl (by simp)
        · rcases ih h with h | h
          · exact .inl (List.mem_cons_of_mem _ h)
          · exact .inr h

theorem memoryWf_writeByte {m : Memory} (h : memoryWf m) (a : Nat) (v : Byte) : memoryWf (writeByte m a v) := by
  refine ⟨?_, fun x hx => ?_⟩
  · induction m with
    | nil =>
      simp only [writeByte]
      split <;> simp
    | cons y m ih =>
      have hy := memoryWf_head h
      have hm := (memoryWf_tail h).1
      simp only [writeByte]
      split
      · split
        · exact h.1
        · refine List.pairwise_cons.mpr ⟨fun z hz => ?_, h.1⟩
          rcases List.mem_cons.mp hz with rfl | hz
          · assumption
          · exact Nat.lt_trans ‹_› (hy z hz)
      · split
        · split
          · exact hm
          · exact List.pairwise_cons.mpr ⟨fun z hz => ‹a = y.1› ▸ hy z hz, hm⟩
        · refine List.pairwise_cons.mpr ⟨fun z hz => ?_, ih (memoryWf_tail h)⟩
          rcases mem_writeByte hz with hz | ⟨rfl, -⟩
          · exact hy z hz
          · simp only; omega
  · rcases mem_writeByte hx with hx | ⟨rfl, hv⟩
    · exact h.2 x hx
    · exact hv

/-- A byte written reads back. -/
theorem readByte_writeByte_same {m : Memory} (h : memoryWf m) (a : Nat) (v : Byte) :
    readByte (writeByte m a v) a = v := by
  induction m with
  | nil =>
    simp only [writeByte]
    split <;> simp_all [readByte]
  | cons y m ih =>
    simp only [writeByte]
    split
    · split
      · subst v
        refine readByte_of_lt fun z hz => ?_
        rcases List.mem_cons.mp hz with rfl | hz
        · assumption
        · exact Nat.lt_trans ‹_› (memoryWf_head h z hz)
      · simp [readByte]
    · split
      · split
        · subst v
          exact readByte_of_lt fun z hz => ‹a = y.1› ▸ memoryWf_head h z hz
        · simp [readByte]
      · have hne : y.1 ≠ a := fun e => ‹¬ a = y.1› e.symm
        simp only [readByte, hne, if_false]
        exact ih (memoryWf_tail h)

/-- Every other byte reads as before. -/
theorem readByte_writeByte_other (m : Memory) {a b : Nat} (hb : b ≠ a) (v : Byte) :
    readByte (writeByte m a v) b = readByte m b := by
  have hab : a ≠ b := fun e => hb e.symm
  induction m with
  | nil =>
    simp only [writeByte]
    split <;> simp [readByte, hab]
  | cons y m ih =>
    simp only [writeByte]
    split
    · split
      · rfl
      · simp [readByte, hab]
    · split
      · have hyb : y.1 ≠ b := fun e => hab (‹a = y.1›.trans e)
        split <;> simp [readByte, hab, hyb]
      · simp only [readByte, ih]

/-! ## Words -/

theorem memoryWf_writeWord {m : Memory} (h : memoryWf m) (a : Nat) (v : Word) : memoryWf (writeWord m a v) :=
  memoryWf_writeByte (memoryWf_writeByte (memoryWf_writeByte (memoryWf_writeByte h _ _) _ _) _ _) _ _

/-- A word written reads back. -/
theorem readWord_writeWord_same {m : Memory} (h : memoryWf m) (a : Nat) (v : Word) :
    readWord (writeWord m a v) a = v := by
  have h1 := memoryWf_writeByte h a (v.extractLsb' 0 8)
  have h2 := memoryWf_writeByte h1 (a + 1) (v.extractLsb' 8 8)
  have h3 := memoryWf_writeByte h2 (a + 2) (v.extractLsb' 16 8)
  simp only [readWord, writeWord, readByte_writeByte_same h3, readByte_writeByte_other _ (show a + 2 ≠ a + 3 by omega),
    readByte_writeByte_same h2, readByte_writeByte_other _ (show a + 1 ≠ a + 3 by omega),
    readByte_writeByte_other _ (show a + 1 ≠ a + 2 by omega), readByte_writeByte_same h1,
    readByte_writeByte_other _ (show a ≠ a + 3 by omega), readByte_writeByte_other _ (show a ≠ a + 2 by omega),
    readByte_writeByte_other _ (show a ≠ a + 1 by omega), readByte_writeByte_same h]
  apply BitVec.eq_of_getLsbD_eq
  intro i hi
  simp only [BitVec.getLsbD_append, BitVec.getLsbD_extractLsb']
  rcases Nat.lt_or_ge i 8 with h8 | h8
  · simp [h8]
  · rcases Nat.lt_or_ge i 16 with h16 | h16
    · simp [show ¬ i < 8 by omega, show i - 8 < 8 by omega, show 8 + (i - 8) = i by omega]
    · rcases Nat.lt_or_ge i 24 with h24 | h24
      · simp [show ¬ i < 8 by omega, show ¬ i - 8 < 8 by omega, show i - 8 - 8 < 8 by omega,
          show 16 + (i - 8 - 8) = i by omega]
      · simp [show ¬ i < 8 by omega, show ¬ i - 8 < 8 by omega, show ¬ i - 8 - 8 < 8 by omega,
          show i - 8 - 8 - 8 < 8 by omega, show 24 + (i - 8 - 8 - 8) = i by omega]

/-- Every byte outside the word reads as before. -/
theorem readByte_writeWord_other (m : Memory) {a b : Nat} (hb : b < a ∨ a + 4 ≤ b) (v : Word) :
    readByte (writeWord m a v) b = readByte m b := by
  simp only [writeWord]
  rw [readByte_writeByte_other _ (by omega), readByte_writeByte_other _ (by omega),
    readByte_writeByte_other _ (by omega), readByte_writeByte_other _ (by omega)]

/-- Every other word reads as before. -/
theorem readWord_writeWord_other (m : Memory) {a b : Nat} (hb : b + 4 ≤ a ∨ a + 4 ≤ b) (v : Word) :
    readWord (writeWord m a v) b = readWord m b := by
  simp only [readWord]
  rw [readByte_writeWord_other m (by omega), readByte_writeWord_other m (by omega),
    readByte_writeWord_other m (by omega), readByte_writeWord_other m (by omega)]

/-! ## The zero fill of PREPARE -/

theorem memoryWf_zeroFill {m : Memory} (h : memoryWf m) (nch n : Nat) : memoryWf (zeroFill nch n m) :=
  ⟨h.1.filter _, fun x hx => h.2 x (List.mem_filter.mp hx).1⟩

/-- A byte in use reads zero; every other byte reads as before. -/
theorem readByte_zeroFill (nch n : Nat) (m : Memory) (a : Nat) :
    readByte (zeroFill nch n m) a = if inUse nch n a then 0 else readByte m a := by
  induction m with
  | nil => simp [zeroFill]
  | cons x m ih =>
    unfold zeroFill at ih ⊢
    by_cases hx : inUse nch n x.1
    · rw [List.filter_cons_of_neg (by simp [hx]), ih]
      by_cases ha : x.1 = a
      · subst ha; simp [hx]
      · simp [readByte, ha]
    · rw [List.filter_cons_of_pos (by simp [hx])]
      by_cases ha : x.1 = a
      · subst ha; simp [readByte, hx]
      · simp only [readByte, ha, if_false, ih]

/-! ## Addresses -/

/-- The four bytes of `dl(c, i)` are in use exactly for c < nch and i < n. -/
theorem inUse_dlAddr (nch n : Nat) (c : Chan) (i k : Nat) (hk : k < 4) :
    inUse nch n (dlAddr c i + k) = (decide (c.toNat < nch) && decide (i < n)) := by
  have hc : c.toNat < 16 := c.isLt
  have h1 : (dlAddr c i + k) / 4 % 16 = c.toNat := by unfold dlAddr; omega
  have h2 : (dlAddr c i + k) / 64 = i := by unfold dlAddr; omega
  simp [inUse, h1, h2]

/-- Different pairs (c, i) have different words. -/
theorem dlAddr_disjoint {c k : Chan} {i j : Nat} (h : c ≠ k ∨ i ≠ j) :
    dlAddr c i + 4 ≤ dlAddr k j ∨ dlAddr k j + 4 ≤ dlAddr c i := by
  have hc : c.toNat < 16 := c.isLt
  have hk : k.toNat < 16 := k.isLt
  have hne : c.toNat ≠ k.toNat ∨ i ≠ j := h.imp (fun e q => e (BitVec.eq_of_toNat_eq q)) id
  unfold dlAddr
  omega

/-! ## The memory of the machine -/

theorem memoryWf_storeSample {s : State} (h : memoryWf s.mem) (c : Chan) (v : Word) :
    memoryWf (storeSample c v s).mem := memoryWf_writeWord h _ _

theorem memoryWf_reset (cfg : Config) : memoryWf (State.resetWith cfg).mem := ⟨List.Pairwise.nil, by simp [State.resetWith]⟩

end Sys2Proof.Machine
end

