-- ==== Sys2Proof/Laws/State.lean ====
section
/-! SUPPORT. One lemma per field per state update, each true by unfolding: later proofs need not unfold an update. -/

namespace Sys2Proof.Machine

/-! ### `setReg` -/

@[simp] theorem setReg_cfg (r : Reg) (v : Word) (s : State) : (setReg r v s).cfg = s.cfg := rfl
@[simp] theorem setReg_d (r : Reg) (v : Word) (s : State) : (setReg r v s).d = s.d.set r.toNat v r.isLt := rfl
@[simp] theorem setReg_csr (r : Reg) (v : Word) (s : State) : (setReg r v s).csr = s.csr := rfl
@[simp] theorem setReg_cur (r : Reg) (v : Word) (s : State) : (setReg r v s).cur = s.cur := rfl
@[simp] theorem setReg_lfos (r : Reg) (v : Word) (s : State) : (setReg r v s).lfos = s.lfos := rfl
@[simp] theorem setReg_dls (r : Reg) (v : Word) (s : State) : (setReg r v s).dls = s.dls := rfl
@[simp] theorem setReg_mem (r : Reg) (v : Word) (s : State) : (setReg r v s).mem = s.mem := rfl
@[simp] theorem setReg_ports (r : Reg) (v : Word) (s : State) : (setReg r v s).ports = s.ports := rfl
@[simp] theorem setReg_events (r : Reg) (v : Word) (s : State) : (setReg r v s).events = s.events := rfl
@[simp] theorem setReg_draws (r : Reg) (v : Word) (s : State) : (setReg r v s).draws = s.draws := rfl
@[simp] theorem setReg_unspecs (r : Reg) (v : Word) (s : State) : (setReg r v s).unspecs = s.unspecs := rfl
@[simp] theorem setReg_grants (r : Reg) (v : Word) (s : State) : (setReg r v s).grants = s.grants := rfl

/-! ### `setParam` -/

@[simp] theorem setParam_cfg (p : ParamIdx) (v : Word) (s : State) : (setParam p v s).cfg = s.cfg := rfl
@[simp] theorem setParam_d (p : ParamIdx) (v : Word) (s : State) : (setParam p v s).d = s.d := rfl
@[simp] theorem setParam_csr (p : ParamIdx) (v : Word) (s : State) : (setParam p v s).csr = s.csr := rfl
@[simp] theorem setParam_cur (p : ParamIdx) (v : Word) (s : State) :
    (setParam p v s).cur = s.cur.set p.toNat v p.isLt := rfl
@[simp] theorem setParam_lfos (p : ParamIdx) (v : Word) (s : State) : (setParam p v s).lfos = s.lfos := rfl
@[simp] theorem setParam_dls (p : ParamIdx) (v : Word) (s : State) : (setParam p v s).dls = s.dls := rfl
@[simp] theorem setParam_mem (p : ParamIdx) (v : Word) (s : State) : (setParam p v s).mem = s.mem := rfl
@[simp] theorem setParam_ports (p : ParamIdx) (v : Word) (s : State) : (setParam p v s).ports = s.ports := rfl
@[simp] theorem setParam_events (p : ParamIdx) (v : Word) (s : State) : (setParam p v s).events = s.events := rfl
@[simp] theorem setParam_draws (p : ParamIdx) (v : Word) (s : State) : (setParam p v s).draws = s.draws := rfl
@[simp] theorem setParam_unspecs (p : ParamIdx) (v : Word) (s : State) : (setParam p v s).unspecs = s.unspecs := rfl
@[simp] theorem setParam_grants (p : ParamIdx) (v : Word) (s : State) : (setParam p v s).grants = s.grants := rfl

/-! ### `setLfo` -/

@[simp] theorem setLfo_cfg (l : Chan) (o : Lfo) (s : State) : (setLfo l o s).cfg = s.cfg := rfl
@[simp] theorem setLfo_d (l : Chan) (o : Lfo) (s : State) : (setLfo l o s).d = s.d := rfl
@[simp] theorem setLfo_csr (l : Chan) (o : Lfo) (s : State) : (setLfo l o s).csr = s.csr := rfl
@[simp] theorem setLfo_cur (l : Chan) (o : Lfo) (s : State) : (setLfo l o s).cur = s.cur := rfl
@[simp] theorem setLfo_lfos (l : Chan) (o : Lfo) (s : State) :
    (setLfo l o s).lfos = s.lfos.set l.toNat o l.isLt := rfl
@[simp] theorem setLfo_dls (l : Chan) (o : Lfo) (s : State) : (setLfo l o s).dls = s.dls := rfl
@[simp] theorem setLfo_mem (l : Chan) (o : Lfo) (s : State) : (setLfo l o s).mem = s.mem := rfl
@[simp] theorem setLfo_ports (l : Chan) (o : Lfo) (s : State) : (setLfo l o s).ports = s.ports := rfl
@[simp] theorem setLfo_events (l : Chan) (o : Lfo) (s : State) : (setLfo l o s).events = s.events := rfl
@[simp] theorem setLfo_draws (l : Chan) (o : Lfo) (s : State) : (setLfo l o s).draws = s.draws := rfl
@[simp] theorem setLfo_unspecs (l : Chan) (o : Lfo) (s : State) : (setLfo l o s).unspecs = s.unspecs := rfl
@[simp] theorem setLfo_grants (l : Chan) (o : Lfo) (s : State) : (setLfo l o s).grants = s.grants := rfl

/-! ### `setDline` -/

@[simp] theorem setDline_cfg (c : Chan) (x : DelayLine) (s : State) : (setDline c x s).cfg = s.cfg := rfl
@[simp] theorem setDline_d (c : Chan) (x : DelayLine) (s : State) : (setDline c x s).d = s.d := rfl
@[simp] theorem setDline_csr (c : Chan) (x : DelayLine) (s : State) : (setDline c x s).csr = s.csr := rfl
@[simp] theorem setDline_cur (c : Chan) (x : DelayLine) (s : State) : (setDline c x s).cur = s.cur := rfl
@[simp] theorem setDline_lfos (c : Chan) (x : DelayLine) (s : State) : (setDline c x s).lfos = s.lfos := rfl
@[simp] theorem setDline_dls (c : Chan) (x : DelayLine) (s : State) :
    (setDline c x s).dls = s.dls.set c.toNat x c.isLt := rfl
@[simp] theorem setDline_mem (c : Chan) (x : DelayLine) (s : State) : (setDline c x s).mem = s.mem := rfl
@[simp] theorem setDline_ports (c : Chan) (x : DelayLine) (s : State) : (setDline c x s).ports = s.ports := rfl
@[simp] theorem setDline_events (c : Chan) (x : DelayLine) (s : State) : (setDline c x s).events = s.events := rfl
@[simp] theorem setDline_draws (c : Chan) (x : DelayLine) (s : State) : (setDline c x s).draws = s.draws := rfl
@[simp] theorem setDline_unspecs (c : Chan) (x : DelayLine) (s : State) : (setDline c x s).unspecs = s.unspecs := rfl
@[simp] theorem setDline_grants (c : Chan) (x : DelayLine) (s : State) : (setDline c x s).grants = s.grants := rfl

/-! ### `setApz` -/

@[simp] theorem setApz_cfg (c : Chan) (t : Slot) (v : Word) (s : State) : (setApz c t v s).cfg = s.cfg := rfl
@[simp] theorem setApz_d (c : Chan) (t : Slot) (v : Word) (s : State) : (setApz c t v s).d = s.d := rfl
@[simp] theorem setApz_csr (c : Chan) (t : Slot) (v : Word) (s : State) : (setApz c t v s).csr = s.csr := rfl
@[simp] theorem setApz_cur (c : Chan) (t : Slot) (v : Word) (s : State) : (setApz c t v s).cur = s.cur := rfl
@[simp] theorem setApz_lfos (c : Chan) (t : Slot) (v : Word) (s : State) : (setApz c t v s).lfos = s.lfos := rfl
@[simp] theorem setApz_dls (c : Chan) (t : Slot) (v : Word) (s : State) :
    (setApz c t v s).dls = (setDline c { dline s c with apz := apzSet (dline s c).apz t v } s).dls := rfl
@[simp] theorem setApz_mem (c : Chan) (t : Slot) (v : Word) (s : State) : (setApz c t v s).mem = s.mem := rfl
@[simp] theorem setApz_ports (c : Chan) (t : Slot) (v : Word) (s : State) : (setApz c t v s).ports = s.ports := rfl
@[simp] theorem setApz_events (c : Chan) (t : Slot) (v : Word) (s : State) : (setApz c t v s).events = s.events := rfl
@[simp] theorem setApz_draws (c : Chan) (t : Slot) (v : Word) (s : State) : (setApz c t v s).draws = s.draws := rfl
@[simp] theorem setApz_unspecs (c : Chan) (t : Slot) (v : Word) (s : State) :
    (setApz c t v s).unspecs = s.unspecs := rfl
@[simp] theorem setApz_grants (c : Chan) (t : Slot) (v : Word) (s : State) : (setApz c t v s).grants = s.grants := rfl

/-! ### `advance` -/

@[simp] theorem advance_cfg (c : Chan) (s : State) : (advance c s).cfg = s.cfg := rfl
@[simp] theorem advance_d (c : Chan) (s : State) : (advance c s).d = s.d := rfl
@[simp] theorem advance_csr (c : Chan) (s : State) : (advance c s).csr = s.csr := rfl
@[simp] theorem advance_cur (c : Chan) (s : State) : (advance c s).cur = s.cur := rfl
@[simp] theorem advance_lfos (c : Chan) (s : State) : (advance c s).lfos = s.lfos := rfl
@[simp] theorem advance_dls (c : Chan) (s : State) :
    (advance c s).dls = (setDline c { dline s c with w := ((dline s c).w + 1) % cap s } s).dls := rfl
@[simp] theorem advance_mem (c : Chan) (s : State) : (advance c s).mem = s.mem := rfl
@[simp] theorem advance_ports (c : Chan) (s : State) : (advance c s).ports = s.ports := rfl
@[simp] theorem advance_events (c : Chan) (s : State) : (advance c s).events = s.events := rfl
@[simp] theorem advance_draws (c : Chan) (s : State) : (advance c s).draws = s.draws := rfl
@[simp] theorem advance_unspecs (c : Chan) (s : State) : (advance c s).unspecs = s.unspecs := rfl
@[simp] theorem advance_grants (c : Chan) (s : State) : (advance c s).grants = s.grants := rfl

/-! ### `csrWrite` -/

@[simp] theorem csrWrite_cfg (r : Csr) (v : Word) (s : State) : (csrWrite r v s).cfg = s.cfg := rfl
@[simp] theorem csrWrite_d (r : Csr) (v : Word) (s : State) : (csrWrite r v s).d = s.d := rfl
@[simp] theorem csrWrite_csr (r : Csr) (v : Word) (s : State) :
    (csrWrite r v s).csr = csrStore s.csr r (csrLegal r v) := rfl
@[simp] theorem csrWrite_cur (r : Csr) (v : Word) (s : State) : (csrWrite r v s).cur = s.cur := rfl
@[simp] theorem csrWrite_lfos (r : Csr) (v : Word) (s : State) : (csrWrite r v s).lfos = s.lfos := rfl
@[simp] theorem csrWrite_dls (r : Csr) (v : Word) (s : State) : (csrWrite r v s).dls = s.dls := rfl
@[simp] theorem csrWrite_mem (r : Csr) (v : Word) (s : State) : (csrWrite r v s).mem = s.mem := rfl
@[simp] theorem csrWrite_ports (r : Csr) (v : Word) (s : State) : (csrWrite r v s).ports = s.ports := rfl
@[simp] theorem csrWrite_events (r : Csr) (v : Word) (s : State) : (csrWrite r v s).events = s.events := rfl
@[simp] theorem csrWrite_draws (r : Csr) (v : Word) (s : State) : (csrWrite r v s).draws = s.draws := rfl
@[simp] theorem csrWrite_unspecs (r : Csr) (v : Word) (s : State) : (csrWrite r v s).unspecs = s.unspecs := rfl
@[simp] theorem csrWrite_grants (r : Csr) (v : Word) (s : State) : (csrWrite r v s).grants = s.grants := rfl

/-! ### `setStatus` -/

@[simp] theorem setStatus_cfg (v : Word) (s : State) : (setStatus v s).cfg = s.cfg := rfl
@[simp] theorem setStatus_d (v : Word) (s : State) : (setStatus v s).d = s.d := rfl
@[simp] theorem setStatus_csr (v : Word) (s : State) : (setStatus v s).csr = { s.csr with status := v } := rfl
@[simp] theorem setStatus_cur (v : Word) (s : State) : (setStatus v s).cur = s.cur := rfl
@[simp] theorem setStatus_lfos (v : Word) (s : State) : (setStatus v s).lfos = s.lfos := rfl
@[simp] theorem setStatus_dls (v : Word) (s : State) : (setStatus v s).dls = s.dls := rfl
@[simp] theorem setStatus_mem (v : Word) (s : State) : (setStatus v s).mem = s.mem := rfl
@[simp] theorem setStatus_ports (v : Word) (s : State) : (setStatus v s).ports = s.ports := rfl
@[simp] theorem setStatus_events (v : Word) (s : State) : (setStatus v s).events = s.events := rfl
@[simp] theorem setStatus_draws (v : Word) (s : State) : (setStatus v s).draws = s.draws := rfl
@[simp] theorem setStatus_unspecs (v : Word) (s : State) : (setStatus v s).unspecs = s.unspecs := rfl
@[simp] theorem setStatus_grants (v : Word) (s : State) : (setStatus v s).grants = s.grants := rfl

/-! ### `storeSample` -/

@[simp] theorem storeSample_cfg (c : Chan) (v : Word) (s : State) : (storeSample c v s).cfg = s.cfg := rfl
@[simp] theorem storeSample_d (c : Chan) (v : Word) (s : State) : (storeSample c v s).d = s.d := rfl
@[simp] theorem storeSample_csr (c : Chan) (v : Word) (s : State) : (storeSample c v s).csr = s.csr := rfl
@[simp] theorem storeSample_cur (c : Chan) (v : Word) (s : State) : (storeSample c v s).cur = s.cur := rfl
@[simp] theorem storeSample_lfos (c : Chan) (v : Word) (s : State) : (storeSample c v s).lfos = s.lfos := rfl
@[simp] theorem storeSample_dls (c : Chan) (v : Word) (s : State) : (storeSample c v s).dls = s.dls := rfl
@[simp] theorem storeSample_mem (c : Chan) (v : Word) (s : State) :
    (storeSample c v s).mem = writeWord s.mem (storeAddr s c) v := rfl
@[simp] theorem storeSample_ports (c : Chan) (v : Word) (s : State) : (storeSample c v s).ports = s.ports := rfl
@[simp] theorem storeSample_events (c : Chan) (v : Word) (s : State) : (storeSample c v s).events = s.events := rfl
@[simp] theorem storeSample_draws (c : Chan) (v : Word) (s : State) : (storeSample c v s).draws = s.draws := rfl
@[simp] theorem storeSample_unspecs (c : Chan) (v : Word) (s : State) : (storeSample c v s).unspecs = s.unspecs := rfl
@[simp] theorem storeSample_grants (c : Chan) (v : Word) (s : State) : (storeSample c v s).grants = s.grants := rfl

/-! ### `respond` -/

@[simp] theorem respond_cfg (v : Word) (s : State) : (respond v s).cfg = s.cfg := rfl
@[simp] theorem respond_d (v : Word) (s : State) : (respond v s).d = s.d := rfl
@[simp] theorem respond_csr (v : Word) (s : State) : (respond v s).csr = s.csr := rfl
@[simp] theorem respond_cur (v : Word) (s : State) : (respond v s).cur = s.cur := rfl
@[simp] theorem respond_lfos (v : Word) (s : State) : (respond v s).lfos = s.lfos := rfl
@[simp] theorem respond_dls (v : Word) (s : State) : (respond v s).dls = s.dls := rfl
@[simp] theorem respond_mem (v : Word) (s : State) : (respond v s).mem = s.mem := rfl
@[simp] theorem respond_ports (v : Word) (s : State) : (respond v s).ports = s.ports := rfl
@[simp] theorem respond_events (v : Word) (s : State) :
    (respond v s).events = { s.events with rsps := s.events.rsps ++ [{ port := s.ports.port, word := v }] } := rfl
@[simp] theorem respond_draws (v : Word) (s : State) : (respond v s).draws = s.draws := rfl
@[simp] theorem respond_unspecs (v : Word) (s : State) : (respond v s).unspecs = s.unspecs := rfl
@[simp] theorem respond_grants (v : Word) (s : State) : (respond v s).grants = s.grants := rfl

/-! ### `emitNotify` -/

@[simp] theorem emitNotify_cfg (p : ParamIdx) (v : Word) (s : State) : (emitNotify p v s).cfg = s.cfg := rfl
@[simp] theorem emitNotify_d (p : ParamIdx) (v : Word) (s : State) : (emitNotify p v s).d = s.d := rfl
@[simp] theorem emitNotify_csr (p : ParamIdx) (v : Word) (s : State) : (emitNotify p v s).csr = s.csr := rfl
@[simp] theorem emitNotify_cur (p : ParamIdx) (v : Word) (s : State) : (emitNotify p v s).cur = s.cur := rfl
@[simp] theorem emitNotify_lfos (p : ParamIdx) (v : Word) (s : State) : (emitNotify p v s).lfos = s.lfos := rfl
@[simp] theorem emitNotify_dls (p : ParamIdx) (v : Word) (s : State) : (emitNotify p v s).dls = s.dls := rfl
@[simp] theorem emitNotify_mem (p : ParamIdx) (v : Word) (s : State) : (emitNotify p v s).mem = s.mem := rfl
@[simp] theorem emitNotify_ports (p : ParamIdx) (v : Word) (s : State) : (emitNotify p v s).ports = s.ports := rfl
@[simp] theorem emitNotify_events (p : ParamIdx) (v : Word) (s : State) :
    (emitNotify p v s).events = { s.events with notify := s.events.notify ++ [{ p := p, v := v }] } := rfl
@[simp] theorem emitNotify_draws (p : ParamIdx) (v : Word) (s : State) : (emitNotify p v s).draws = s.draws := rfl
@[simp] theorem emitNotify_unspecs (p : ParamIdx) (v : Word) (s : State) :
    (emitNotify p v s).unspecs = s.unspecs := rfl
@[simp] theorem emitNotify_grants (p : ParamIdx) (v : Word) (s : State) : (emitNotify p v s).grants = s.grants := rfl

/-! ### `emitFwd` -/

@[simp] theorem emitFwd_cfg (k : Chan) (v : Word) (s : State) : (emitFwd k v s).cfg = s.cfg := rfl
@[simp] theorem emitFwd_d (k : Chan) (v : Word) (s : State) : (emitFwd k v s).d = s.d := rfl
@[simp] theorem emitFwd_csr (k : Chan) (v : Word) (s : State) : (emitFwd k v s).csr = s.csr := rfl
@[simp] theorem emitFwd_cur (k : Chan) (v : Word) (s : State) : (emitFwd k v s).cur = s.cur := rfl
@[simp] theorem emitFwd_lfos (k : Chan) (v : Word) (s : State) : (emitFwd k v s).lfos = s.lfos := rfl
@[simp] theorem emitFwd_dls (k : Chan) (v : Word) (s : State) : (emitFwd k v s).dls = s.dls := rfl
@[simp] theorem emitFwd_mem (k : Chan) (v : Word) (s : State) : (emitFwd k v s).mem = s.mem := rfl
@[simp] theorem emitFwd_ports (k : Chan) (v : Word) (s : State) : (emitFwd k v s).ports = s.ports := rfl
@[simp] theorem emitFwd_events (k : Chan) (v : Word) (s : State) :
    (emitFwd k v s).events = { s.events with fwd := s.events.fwd ++ [{ k := k.setWidth 3, v := v }] } := rfl
@[simp] theorem emitFwd_draws (k : Chan) (v : Word) (s : State) : (emitFwd k v s).draws = s.draws := rfl
@[simp] theorem emitFwd_unspecs (k : Chan) (v : Word) (s : State) : (emitFwd k v s).unspecs = s.unspecs := rfl
@[simp] theorem emitFwd_grants (k : Chan) (v : Word) (s : State) : (emitFwd k v s).grants = s.grants := rfl

/-! ### `emitSo` -/

@[simp] theorem emitSo_cfg (bs : List StreamByte) (s : State) : (emitSo bs s).cfg = s.cfg := rfl
@[simp] theorem emitSo_d (bs : List StreamByte) (s : State) : (emitSo bs s).d = s.d := rfl
@[simp] theorem emitSo_csr (bs : List StreamByte) (s : State) : (emitSo bs s).csr = s.csr := rfl
@[simp] theorem emitSo_cur (bs : List StreamByte) (s : State) : (emitSo bs s).cur = s.cur := rfl
@[simp] theorem emitSo_lfos (bs : List StreamByte) (s : State) : (emitSo bs s).lfos = s.lfos := rfl
@[simp] theorem emitSo_dls (bs : List StreamByte) (s : State) : (emitSo bs s).dls = s.dls := rfl
@[simp] theorem emitSo_mem (bs : List StreamByte) (s : State) : (emitSo bs s).mem = s.mem := rfl
@[simp] theorem emitSo_ports (bs : List StreamByte) (s : State) : (emitSo bs s).ports = s.ports := rfl
@[simp] theorem emitSo_events (bs : List StreamByte) (s : State) :
    (emitSo bs s).events = { s.events with so := s.events.so ++ bs } := rfl
@[simp] theorem emitSo_draws (bs : List StreamByte) (s : State) : (emitSo bs s).draws = s.draws := rfl
@[simp] theorem emitSo_unspecs (bs : List StreamByte) (s : State) : (emitSo bs s).unspecs = s.unspecs := rfl
@[simp] theorem emitSo_grants (bs : List StreamByte) (s : State) : (emitSo bs s).grants = s.grants := rfl

/-! ### `writeResult` -/

@[simp] theorem writeResult_cfg (r : Reg) (v : Word) (s : State) : (writeResult r v s).cfg = s.cfg := rfl
@[simp] theorem writeResult_d (r : Reg) (v : Word) (s : State) :
    (writeResult r v s).d = s.d.set r.toNat v r.isLt := rfl
@[simp] theorem writeResult_csr (r : Reg) (v : Word) (s : State) : (writeResult r v s).csr = s.csr := rfl
@[simp] theorem writeResult_cur (r : Reg) (v : Word) (s : State) : (writeResult r v s).cur = s.cur := rfl
@[simp] theorem writeResult_lfos (r : Reg) (v : Word) (s : State) : (writeResult r v s).lfos = s.lfos := rfl
@[simp] theorem writeResult_dls (r : Reg) (v : Word) (s : State) : (writeResult r v s).dls = s.dls := rfl
@[simp] theorem writeResult_mem (r : Reg) (v : Word) (s : State) : (writeResult r v s).mem = s.mem := rfl
@[simp] theorem writeResult_ports (r : Reg) (v : Word) (s : State) : (writeResult r v s).ports = s.ports := rfl
@[simp] theorem writeResult_events (r : Reg) (v : Word) (s : State) :
    (writeResult r v s).events = (respond v s).events := rfl
@[simp] theorem writeResult_draws (r : Reg) (v : Word) (s : State) : (writeResult r v s).draws = s.draws := rfl
@[simp] theorem writeResult_unspecs (r : Reg) (v : Word) (s : State) : (writeResult r v s).unspecs = s.unspecs := rfl
@[simp] theorem writeResult_grants (r : Reg) (v : Word) (s : State) : (writeResult r v s).grants = s.grants := rfl

/-! ### `suppress` -/

@[simp] theorem suppress_cfg (s : State) : (suppress s).cfg = s.cfg := rfl
@[simp] theorem suppress_d (s : State) : (suppress s).d = s.d := rfl
@[simp] theorem suppress_csr (s : State) :
    (suppress s).csr = { s.csr with status := statusSuppressed s.csr.status } := rfl
@[simp] theorem suppress_cur (s : State) : (suppress s).cur = s.cur := rfl
@[simp] theorem suppress_lfos (s : State) : (suppress s).lfos = s.lfos := rfl
@[simp] theorem suppress_dls (s : State) : (suppress s).dls = s.dls := rfl
@[simp] theorem suppress_mem (s : State) : (suppress s).mem = s.mem := rfl
@[simp] theorem suppress_ports (s : State) : (suppress s).ports = s.ports := rfl
@[simp] theorem suppress_events (s : State) : (suppress s).events = (respond 0 s).events := rfl
@[simp] theorem suppress_draws (s : State) : (suppress s).draws = s.draws := rfl
@[simp] theorem suppress_unspecs (s : State) : (suppress s).unspecs = s.unspecs := rfl
@[simp] theorem suppress_grants (s : State) : (suppress s).grants = s.grants := rfl

/-! ### `takeUnspec` -/

@[simp] theorem takeUnspec_cfg (s : State) : (takeUnspec s).cfg = s.cfg := rfl
@[simp] theorem takeUnspec_d (s : State) : (takeUnspec s).d = s.d := rfl
@[simp] theorem takeUnspec_csr (s : State) : (takeUnspec s).csr = s.csr := rfl
@[simp] theorem takeUnspec_cur (s : State) : (takeUnspec s).cur = s.cur := rfl
@[simp] theorem takeUnspec_lfos (s : State) : (takeUnspec s).lfos = s.lfos := rfl
@[simp] theorem takeUnspec_dls (s : State) : (takeUnspec s).dls = s.dls := rfl
@[simp] theorem takeUnspec_mem (s : State) : (takeUnspec s).mem = s.mem := rfl
@[simp] theorem takeUnspec_ports (s : State) : (takeUnspec s).ports = s.ports := rfl
@[simp] theorem takeUnspec_events (s : State) : (takeUnspec s).events = s.events := rfl
@[simp] theorem takeUnspec_draws (s : State) : (takeUnspec s).draws = s.draws := rfl
@[simp] theorem takeUnspec_unspecs (s : State) : (takeUnspec s).unspecs = s.unspecs + 1 := rfl
@[simp] theorem takeUnspec_grants (s : State) : (takeUnspec s).grants = s.grants := rfl

/-! ### `takeDraws` -/

@[simp] theorem takeDraws_cfg (n : Nat) (s : State) : (takeDraws n s).cfg = s.cfg := rfl
@[simp] theorem takeDraws_d (n : Nat) (s : State) : (takeDraws n s).d = s.d := rfl
@[simp] theorem takeDraws_csr (n : Nat) (s : State) : (takeDraws n s).csr = s.csr := rfl
@[simp] theorem takeDraws_cur (n : Nat) (s : State) : (takeDraws n s).cur = s.cur := rfl
@[simp] theorem takeDraws_lfos (n : Nat) (s : State) : (takeDraws n s).lfos = s.lfos := rfl
@[simp] theorem takeDraws_dls (n : Nat) (s : State) : (takeDraws n s).dls = s.dls := rfl
@[simp] theorem takeDraws_mem (n : Nat) (s : State) : (takeDraws n s).mem = s.mem := rfl
@[simp] theorem takeDraws_ports (n : Nat) (s : State) : (takeDraws n s).ports = s.ports := rfl
@[simp] theorem takeDraws_events (n : Nat) (s : State) : (takeDraws n s).events = s.events := rfl
@[simp] theorem takeDraws_draws (n : Nat) (s : State) : (takeDraws n s).draws = s.draws + n := rfl
@[simp] theorem takeDraws_unspecs (n : Nat) (s : State) : (takeDraws n s).unspecs = s.unspecs := rfl
@[simp] theorem takeDraws_grants (n : Nat) (s : State) : (takeDraws n s).grants = s.grants := rfl

/-! ### `setStream` -/

@[simp] theorem setStream_cfg (x : Stream) (s : State) : (setStream x s).cfg = s.cfg := rfl
@[simp] theorem setStream_d (x : Stream) (s : State) : (setStream x s).d = s.d := rfl
@[simp] theorem setStream_csr (x : Stream) (s : State) : (setStream x s).csr = s.csr := rfl
@[simp] theorem setStream_cur (x : Stream) (s : State) : (setStream x s).cur = s.cur := rfl
@[simp] theorem setStream_lfos (x : Stream) (s : State) : (setStream x s).lfos = s.lfos := rfl
@[simp] theorem setStream_dls (x : Stream) (s : State) : (setStream x s).dls = s.dls := rfl
@[simp] theorem setStream_mem (x : Stream) (s : State) : (setStream x s).mem = s.mem := rfl
@[simp] theorem setStream_ports (x : Stream) (s : State) : (setStream x s).ports = { s.ports with stream := x } := rfl
@[simp] theorem setStream_events (x : Stream) (s : State) : (setStream x s).events = s.events := rfl
@[simp] theorem setStream_draws (x : Stream) (s : State) : (setStream x s).draws = s.draws := rfl
@[simp] theorem setStream_unspecs (x : Stream) (s : State) : (setStream x s).unspecs = s.unspecs := rfl
@[simp] theorem setStream_grants (x : Stream) (s : State) : (setStream x s).grants = s.grants := rfl

/-! ### `takeRoom` -/

@[simp] theorem takeRoom_cfg (n : Nat) (s : State) : (takeRoom n s).cfg = s.cfg := rfl
@[simp] theorem takeRoom_d (n : Nat) (s : State) : (takeRoom n s).d = s.d := rfl
@[simp] theorem takeRoom_csr (n : Nat) (s : State) : (takeRoom n s).csr = s.csr := rfl
@[simp] theorem takeRoom_cur (n : Nat) (s : State) : (takeRoom n s).cur = s.cur := rfl
@[simp] theorem takeRoom_lfos (n : Nat) (s : State) : (takeRoom n s).lfos = s.lfos := rfl
@[simp] theorem takeRoom_dls (n : Nat) (s : State) : (takeRoom n s).dls = s.dls := rfl
@[simp] theorem takeRoom_mem (n : Nat) (s : State) : (takeRoom n s).mem = s.mem := rfl
@[simp] theorem takeRoom_ports (n : Nat) (s : State) :
    (takeRoom n s).ports = { s.ports with soRoom := s.ports.soRoom - n } := rfl
@[simp] theorem takeRoom_events (n : Nat) (s : State) : (takeRoom n s).events = s.events := rfl
@[simp] theorem takeRoom_draws (n : Nat) (s : State) : (takeRoom n s).draws = s.draws := rfl
@[simp] theorem takeRoom_unspecs (n : Nat) (s : State) : (takeRoom n s).unspecs = s.unspecs := rfl
@[simp] theorem takeRoom_grants (n : Nat) (s : State) : (takeRoom n s).grants = s.grants := rfl

/-! ### `setSi` -/

@[simp] theorem setSi_cfg (bs : List StreamByte) (s : State) : (setSi bs s).cfg = s.cfg := rfl
@[simp] theorem setSi_d (bs : List StreamByte) (s : State) : (setSi bs s).d = s.d := rfl
@[simp] theorem setSi_csr (bs : List StreamByte) (s : State) : (setSi bs s).csr = s.csr := rfl
@[simp] theorem setSi_cur (bs : List StreamByte) (s : State) : (setSi bs s).cur = s.cur := rfl
@[simp] theorem setSi_lfos (bs : List StreamByte) (s : State) : (setSi bs s).lfos = s.lfos := rfl
@[simp] theorem setSi_dls (bs : List StreamByte) (s : State) : (setSi bs s).dls = s.dls := rfl
@[simp] theorem setSi_mem (bs : List StreamByte) (s : State) : (setSi bs s).mem = s.mem := rfl
@[simp] theorem setSi_ports (bs : List StreamByte) (s : State) : (setSi bs s).ports = { s.ports with si := bs } := rfl
@[simp] theorem setSi_events (bs : List StreamByte) (s : State) : (setSi bs s).events = s.events := rfl
@[simp] theorem setSi_draws (bs : List StreamByte) (s : State) : (setSi bs s).draws = s.draws := rfl
@[simp] theorem setSi_unspecs (bs : List StreamByte) (s : State) : (setSi bs s).unspecs = s.unspecs := rfl
@[simp] theorem setSi_grants (bs : List StreamByte) (s : State) : (setSi bs s).grants = s.grants := rfl

/-! ### `prepareReject` -/

@[simp] theorem prepareReject_cfg (s : State) : (prepareReject s).cfg = s.cfg := rfl
@[simp] theorem prepareReject_d (s : State) : (prepareReject s).d = s.d := rfl
@[simp] theorem prepareReject_csr (s : State) :
    (prepareReject s).csr = { s.csr with status := statusRejected s.csr.status } := rfl
@[simp] theorem prepareReject_cur (s : State) : (prepareReject s).cur = s.cur := rfl
@[simp] theorem prepareReject_lfos (s : State) : (prepareReject s).lfos = s.lfos := rfl
@[simp] theorem prepareReject_dls (s : State) : (prepareReject s).dls = s.dls := rfl
@[simp] theorem prepareReject_mem (s : State) : (prepareReject s).mem = s.mem := rfl
@[simp] theorem prepareReject_ports (s : State) : (prepareReject s).ports = s.ports := rfl
@[simp] theorem prepareReject_events (s : State) : (prepareReject s).events = s.events := rfl
@[simp] theorem prepareReject_draws (s : State) : (prepareReject s).draws = s.draws := rfl
@[simp] theorem prepareReject_unspecs (s : State) : (prepareReject s).unspecs = s.unspecs := rfl
@[simp] theorem prepareReject_grants (s : State) : (prepareReject s).grants = s.grants := rfl

/-! ### `prepareAccept` -/

@[simp] theorem prepareAccept_cfg (sr blk : Word) (nch : Chan) (n : Nat) (s : State) :
    (prepareAccept sr blk nch n s).cfg = s.cfg := rfl
@[simp] theorem prepareAccept_d (sr blk : Word) (nch : Chan) (n : Nat) (s : State) :
    (prepareAccept sr blk nch n s).d = s.d := rfl
@[simp] theorem prepareAccept_csr (sr blk : Word) (nch : Chan) (n : Nat) (s : State) :
    (prepareAccept sr blk nch n s).csr = { s.csr with
      status := statusPrepared s.csr.status, sr := sr, blk := blk, nch := nch.zeroExtend 32
      cap := BitVec.ofNat 32 n } := rfl
@[simp] theorem prepareAccept_cur (sr blk : Word) (nch : Chan) (n : Nat) (s : State) :
    (prepareAccept sr blk nch n s).cur = s.cur := rfl
@[simp] theorem prepareAccept_lfos (sr blk : Word) (nch : Chan) (n : Nat) (s : State) :
    (prepareAccept sr blk nch n s).lfos = preparedLfos s := rfl
@[simp] theorem prepareAccept_dls (sr blk : Word) (nch : Chan) (n : Nat) (s : State) :
    (prepareAccept sr blk nch n s).dls = Vector.replicate 16 DelayLine.reset := rfl
@[simp] theorem prepareAccept_mem (sr blk : Word) (nch : Chan) (n : Nat) (s : State) :
    (prepareAccept sr blk nch n s).mem = zeroFill nch.toNat n s.mem := rfl
@[simp] theorem prepareAccept_ports (sr blk : Word) (nch : Chan) (n : Nat) (s : State) :
    (prepareAccept sr blk nch n s).ports = s.ports := rfl
@[simp] theorem prepareAccept_events (sr blk : Word) (nch : Chan) (n : Nat) (s : State) :
    (prepareAccept sr blk nch n s).events = s.events := rfl
@[simp] theorem prepareAccept_draws (sr blk : Word) (nch : Chan) (n : Nat) (s : State) :
    (prepareAccept sr blk nch n s).draws = s.draws := rfl
@[simp] theorem prepareAccept_unspecs (sr blk : Word) (nch : Chan) (n : Nat) (s : State) :
    (prepareAccept sr blk nch n s).unspecs = s.unspecs := rfl
@[simp] theorem prepareAccept_grants (sr blk : Word) (nch : Chan) (n : Nat) (s : State) :
    (prepareAccept sr blk nch n s).grants = s.grants := rfl

/-! ### Reads through updates -/

@[simp] theorem reg_setReg_same (r : Reg) (v : Word) (s : State) : reg (setReg r v s) r = v := by
  simp [reg]

theorem reg_setReg_other {r q : Reg} (h : q ≠ r) (v : Word) (s : State) : reg (setReg r v s) q = reg s q := by
  have : r.toNat ≠ q.toNat := fun e => h (BitVec.eq_of_toNat_eq e.symm)
  simp [reg, this]

@[simp] theorem param_setParam_same (p : ParamIdx) (v : Word) (s : State) : param (setParam p v s) p = v := by
  simp [param]

theorem param_setParam_other {p q : ParamIdx} (h : q ≠ p) (v : Word) (s : State) :
    param (setParam p v s) q = param s q := by
  have : p.toNat ≠ q.toNat := fun e => h (BitVec.eq_of_toNat_eq e.symm)
  simp [param, this]

@[simp] theorem lfo_setLfo_same (l : Chan) (o : Lfo) (s : State) : lfo (setLfo l o s) l = o := by
  simp [lfo]

theorem lfo_setLfo_other {l k : Chan} (h : k ≠ l) (o : Lfo) (s : State) : lfo (setLfo l o s) k = lfo s k := by
  have : l.toNat ≠ k.toNat := fun e => h (BitVec.eq_of_toNat_eq e.symm)
  simp [lfo, this]

@[simp] theorem dline_setDline_same (c : Chan) (x : DelayLine) (s : State) : dline (setDline c x s) c = x := by
  simp [dline]

theorem dline_setDline_other {c k : Chan} (h : k ≠ c) (x : DelayLine) (s : State) :
    dline (setDline c x s) k = dline s k := by
  have : c.toNat ≠ k.toNat := fun e => h (BitVec.eq_of_toNat_eq e.symm)
  simp [dline, this]

end Sys2Proof.Machine
end

