-- ==== Sys2Proof/Laws/Ops.lean ====
section
/-! SUPPORT. For each shared operation, one lemma that says all it can do. -/

namespace Sys2Proof.Machine

/-! ## The frame of a command (40_system_datapath.md R131) -/

theorem command_of_legal {i : Instr} {s : State} (h : illegality i s = none) (e : Host.Outcome State Fault Refusal) :
    command i s e = e := by
  simp only [command, h]

theorem command_of_illegal {i : Instr} {s : State} {x : Suppression} (h : illegality i s = some x)
    (e : Host.Outcome State Fault Refusal) : command i s e = .next (suppress s) := by
  simp only [command, h]

/-- A command that answers a next state was suppressed, or had its effect. -/
theorem command_next {i : Instr} {s t : State} {e : Host.Outcome State Fault Refusal}
    (h : command i s e = .next t) : (illegality i s ≠ none ∧ t = suppress s) ∨ (illegality i s = none ∧ e = .next t) := by
  unfold command at h
  split at h
  · exact .inl ⟨by simp [*], by injection h with h; exact h.symm⟩
  · exact .inr ⟨‹_›, h⟩

/-- A command that faults was legal. -/
theorem command_fault {i : Instr} {s : State} {f : Fault} {e : Host.Outcome State Fault Refusal}
    (h : command i s e = .fault f) : illegality i s = none ∧ e = .fault f := by
  unfold command at h
  split at h
  · cases h
  · exact ⟨‹_›, h⟩

/-- A command that refuses was legal. -/
theorem command_refused {i : Instr} {s : State} {r : Refusal} {e : Host.Outcome State Fault Refusal}
    (h : command i s e = .refused r) : illegality i s = none ∧ e = .refused r := by
  unfold command at h
  split at h
  · cases h
  · exact ⟨‹_›, h⟩

/-- Legal: the port accepts the command, its fields and its channel are legal, and it is prepared if need be. -/
theorem illegality_eq_none {i : Instr} {s : State} :
    illegality i s = none ↔
      portAccepts i s.ports.port = true ∧ i.wf s.cfg = true ∧ channelInUse s i = true ∧
        (i.op.needsPrepared = true → prepared s = true) := by
  unfold illegality
  cases portAccepts i s.ports.port <;> cases i.wf s.cfg <;> cases channelInUse s i <;>
    cases i.op.needsPrepared <;> cases prepared s <;> simp

/-! ## The tap read (43_delay_line.md R205, R207) -/

/-- A tap read that answers was in range, or the configuration asks the model to run on. -/
theorem tapRead_ok {c : Chan} {d : Word} {mode : Interp} {t : Slot} {s u : State} {v : Word}
    (h : tapRead c d mode t s = .ok (v, u)) :
    (delayInRange s d mode = true ∧ v = tapValue s c d mode t ∧ u = tapState c d mode t s) ∨
      (delayInRange s d mode = false ∧ s.cfg.openPoints = .run ∧ v = unspecWord s ∧ u = tapUnspecState c mode t s) := by
  unfold tapRead at h
  split at h
  · rename_i hr
    have e := Except.ok.inj h
    exact .inl ⟨hr, (congrArg Prod.fst e).symm, (congrArg Prod.snd e).symm⟩
  · rename_i hr
    split at h
    · cases h
    · rename_i ho
      have e := Except.ok.inj h
      exact .inr ⟨by simpa using hr, ho, (congrArg Prod.fst e).symm, (congrArg Prod.snd e).symm⟩

/-- A tap read stops with one fault only, out of range, where the configuration asks the model to stop. -/
theorem tapRead_error {c : Chan} {d : Word} {mode : Interp} {t : Slot} {s : State} {f : Fault}
    (h : tapRead c d mode t s = .error f) :
    f = .delayRange ∧ delayInRange s d mode = false ∧ s.cfg.openPoints = .stop := by
  unfold tapRead at h
  split at h
  · cases h
  · rename_i hr
    split at h
    · rename_i ho
      exact ⟨(Except.error.inj h).symm, by simpa using hr, ho⟩
    · cases h

/-- A tap read changes the all-pass state of its channel and the counter of free values, nothing else. -/
theorem tapRead_frame {c : Chan} {d : Word} {mode : Interp} {t : Slot} {s u : State} {v : Word}
    (h : tapRead c d mode t s = .ok (v, u)) : u = { s with dls := u.dls, unspecs := u.unspecs } := by
  rcases tapRead_ok h with ⟨-, -, rfl⟩ | ⟨-, -, -, rfl⟩
  · cases mode <;> rfl
  · cases mode <;> rfl

/-- A tap read in a mode other than ALLPASS whose preconditions hold changes nothing (20_memory.md R79). -/
theorem tapState_of_ne_allpass {mode : Interp} (h : mode ≠ .allpass) (c : Chan) (d : Word) (t : Slot) (s : State) :
    tapState c d mode t s = s := by
  cases mode <;> first | rfl | exact absurd rfl h

/-! ## The write index (43_delay_line.md R201) -/

@[simp] theorem dline_advance_same (c : Chan) (s : State) :
    dline (advance c s) c = { dline s c with w := ((dline s c).w + 1) % cap s } := by
  simp [advance]

theorem dline_advance_other {c k : Chan} (h : k ≠ c) (s : State) : dline (advance c s) k = dline s k := by
  simp [advance, dline_setDline_other h]

@[simp] theorem cap_advance (c : Chan) (s : State) : cap (advance c s) = cap s := rfl

@[simp] theorem cap_storeSample (c : Chan) (v : Word) (s : State) : cap (storeSample c v s) = cap s := rfl

@[simp] theorem dline_storeSample (c k : Chan) (v : Word) (s : State) : dline (storeSample c v s) k = dline s k := rfl

/-! ## The setter (41_parameter_store.md R165) -/

theorem setpEffect_of_nan {v : Word} (h : isNaN v = true) (p : ParamIdx) (s : State) : setpEffect p v s = s := by
  simp [setpEffect, h]

theorem setpEffect_of_number {v : Word} (h : isNaN v = false) (p : ParamIdx) (s : State) :
    setpEffect p v s = emitNotify p (clamped s p v) (setParam p (clamped s p v) s) := by
  simp [setpEffect, h]

end Sys2Proof.Machine
end

