-- ==== Sys2Proof/Laws/PerInstr.lean ====
section
/-! SUPPORT. Statements about every command, one lemma per constructor of `Instr`. -/

namespace Sys2Proof.Laws

/-- Bits 31:24 of the control word `encode` writes are the opcode byte of the command's row (30_encoding.md R104, R108). -/
def OpcodeByte.Statement (i : Instr) : Prop := cwOp (packetCw (encode i)) = i.op.code

theorem OpcodeByte.nop : OpcodeByte.Statement (.nop) :=
  (congrArg cwOp (packetCw_encode _)).trans (cwOp_controlWord _ _ _ _ _ _ _)

theorem OpcodeByte.prepare (ra rb : Reg) (nch : Chan) (pd : ParamIdx) : OpcodeByte.Statement (.prepare ra rb nch pd) :=
  (congrArg cwOp (packetCw_encode _)).trans (cwOp_controlWord _ _ _ _ _ _ _)

theorem OpcodeByte.release : OpcodeByte.Statement (.release) :=
  (congrArg cwOp (packetCw_encode _)).trans (cwOp_controlWord _ _ _ _ _ _ _)

theorem OpcodeByte.ldi (rd : Reg) (imm : Word) : OpcodeByte.Statement (.ldi rd imm) :=
  (congrArg cwOp (packetCw_encode _)).trans (cwOp_controlWord _ _ _ _ _ _ _)

theorem OpcodeByte.mov (rd ra : Reg) : OpcodeByte.Statement (.mov rd ra) :=
  (congrArg cwOp (packetCw_encode _)).trans (cwOp_controlWord _ _ _ _ _ _ _)

theorem OpcodeByte.rdr (ra : Reg) : OpcodeByte.Statement (.rdr ra) :=
  (congrArg cwOp (packetCw_encode _)).trans (cwOp_controlWord _ _ _ _ _ _ _)

theorem OpcodeByte.csrr (rd : Reg) (csr : CsrAddr) : OpcodeByte.Statement (.csrr rd csr) :=
  (congrArg cwOp (packetCw_encode _)).trans (cwOp_controlWord _ _ _ _ _ _ _)

theorem OpcodeByte.csrw (csr : CsrAddr) (ra : Reg) : OpcodeByte.Statement (.csrw csr ra) :=
  (congrArg cwOp (packetCw_encode _)).trans (cwOp_controlWord _ _ _ _ _ _ _)

theorem OpcodeByte.fadd (rd ra rb : Reg) : OpcodeByte.Statement (.fadd rd ra rb) :=
  (congrArg cwOp (packetCw_encode _)).trans (cwOp_controlWord _ _ _ _ _ _ _)

theorem OpcodeByte.fsub (rd ra rb : Reg) : OpcodeByte.Statement (.fsub rd ra rb) :=
  (congrArg cwOp (packetCw_encode _)).trans (cwOp_controlWord _ _ _ _ _ _ _)

theorem OpcodeByte.fmul (rd ra rb : Reg) : OpcodeByte.Statement (.fmul rd ra rb) :=
  (congrArg cwOp (packetCw_encode _)).trans (cwOp_controlWord _ _ _ _ _ _ _)

theorem OpcodeByte.fdiv (rd ra rb : Reg) : OpcodeByte.Statement (.fdiv rd ra rb) :=
  (congrArg cwOp (packetCw_encode _)).trans (cwOp_controlWord _ _ _ _ _ _ _)

theorem OpcodeByte.getp (rd : Reg) (p : ParamIdx) : OpcodeByte.Statement (.getp rd p) :=
  (congrArg cwOp (packetCw_encode _)).trans (cwOp_controlWord _ _ _ _ _ _ _)

theorem OpcodeByte.pmin (rd : Reg) (p : ParamIdx) : OpcodeByte.Statement (.pmin rd p) :=
  (congrArg cwOp (packetCw_encode _)).trans (cwOp_controlWord _ _ _ _ _ _ _)

theorem OpcodeByte.pmax (rd : Reg) (p : ParamIdx) : OpcodeByte.Statement (.pmax rd p) :=
  (congrArg cwOp (packetCw_encode _)).trans (cwOp_controlWord _ _ _ _ _ _ _)

theorem OpcodeByte.pdef (rd : Reg) (p : ParamIdx) : OpcodeByte.Statement (.pdef rd p) :=
  (congrArg cwOp (packetCw_encode _)).trans (cwOp_controlWord _ _ _ _ _ _ _)

theorem OpcodeByte.setp (p : ParamIdx) (imm : Word) : OpcodeByte.Statement (.setp p imm) :=
  (congrArg cwOp (packetCw_encode _)).trans (cwOp_controlWord _ _ _ _ _ _ _)

theorem OpcodeByte.enc : OpcodeByte.Statement (.enc) :=
  (congrArg cwOp (packetCw_encode _)).trans (cwOp_controlWord _ _ _ _ _ _ _)

theorem OpcodeByte.dec : OpcodeByte.Statement (.dec) :=
  (congrArg cwOp (packetCw_encode _)).trans (cwOp_controlWord _ _ _ _ _ _ _)

theorem OpcodeByte.fwd (k : Chan) (p : ParamIdx) : OpcodeByte.Statement (.fwd k p) :=
  (congrArg cwOp (packetCw_encode _)).trans (cwOp_controlWord _ _ _ _ _ _ _)

theorem OpcodeByte.setf (l : Chan) (ra : Reg) : OpcodeByte.Statement (.setf l ra) :=
  (congrArg cwOp (packetCw_encode _)).trans (cwOp_controlWord _ _ _ _ _ _ _)

theorem OpcodeByte.lrst (l : Chan) : OpcodeByte.Statement (.lrst l) :=
  (congrArg cwOp (packetCw_encode _)).trans (cwOp_controlWord _ _ _ _ _ _ _)

theorem OpcodeByte.lnext (rd : Reg) (l : Chan) : OpcodeByte.Statement (.lnext rd l) :=
  (congrArg cwOp (packetCw_encode _)).trans (cwOp_controlWord _ _ _ _ _ _ _)

theorem OpcodeByte.setw (l : Chan) (w : BitVec 2) : OpcodeByte.Statement (.setw l w) :=
  (congrArg cwOp (packetCw_encode _)).trans (cwOp_controlWord _ _ _ _ _ _ _)

theorem OpcodeByte.dlw (c : Chan) (ra : Reg) : OpcodeByte.Statement (.dlw c ra) :=
  (congrArg cwOp (packetCw_encode _)).trans (cwOp_controlWord _ _ _ _ _ _ _)

theorem OpcodeByte.dladv (c : Chan) : OpcodeByte.Statement (.dladv c) :=
  (congrArg cwOp (packetCw_encode _)).trans (cwOp_controlWord _ _ _ _ _ _ _)

theorem OpcodeByte.push (c : Chan) (ra : Reg) : OpcodeByte.Statement (.push c ra) :=
  (congrArg cwOp (packetCw_encode _)).trans (cwOp_controlWord _ _ _ _ _ _ _)

theorem OpcodeByte.pop (rd ra : Reg) (c : Chan) (interp : Interp) (tap : BitVec 2) : OpcodeByte.Statement (.pop rd ra c interp tap) :=
  (congrArg cwOp (packetCw_encode _)).trans (cwOp_controlWord _ _ _ _ _ _ _)

theorem OpcodeByte.dlfb (c : Chan) (ra rb rc : Reg) : OpcodeByte.Statement (.dlfb c ra rb rc) :=
  (congrArg cwOp (packetCw_encode _)).trans (cwOp_controlWord _ _ _ _ _ _ _)

theorem OpcodeByte.shape (rd ra : Reg) : OpcodeByte.Statement (.shape rd ra) :=
  (congrArg cwOp (packetCw_encode _)).trans (cwOp_controlWord _ _ _ _ _ _ _)

theorem OpcodeByte.thr (b : BitVec 2) (ra : Reg) : OpcodeByte.Statement (.thr b ra) :=
  (congrArg cwOp (packetCw_encode _)).trans (cwOp_controlWord _ _ _ _ _ _ _)

theorem OpcodeByte.trem (rd ra rb : Reg) : OpcodeByte.Statement (.trem rd ra rb) :=
  (congrArg cwOp (packetCw_encode _)).trans (cwOp_controlWord _ _ _ _ _ _ _)

theorem OpcodeByte.dly (rd ra : Reg) (c : Chan) : OpcodeByte.Statement (.dly rd ra c) :=
  (congrArg cwOp (packetCw_encode _)).trans (cwOp_controlWord _ _ _ _ _ _ _)

theorem OpcodeByte.chor (rd ra rb : Reg) (c : Chan) : OpcodeByte.Statement (.chor rd ra rb c) :=
  (congrArg cwOp (packetCw_encode _)).trans (cwOp_controlWord _ _ _ _ _ _ _)

theorem OpcodeByte.dist (rd ra : Reg) : OpcodeByte.Statement (.dist rd ra) :=
  (congrArg cwOp (packetCw_encode _)).trans (cwOp_controlWord _ _ _ _ _ _ _)

end Sys2Proof.Laws
end

