-- ==== Sys2Proof/Laws/Serving.lean ====
section
/-! SUPPORT. The state a move of the C-port starts from, and when the C-port moves. -/

namespace Sys2Proof.Machine

@[simp] theorem servingC_cfg (s : State) : (servingC s).cfg = s.cfg := rfl
@[simp] theorem servingC_d (s : State) : (servingC s).d = s.d := rfl
@[simp] theorem servingC_csr (s : State) : (servingC s).csr = s.csr := rfl
@[simp] theorem servingC_cur (s : State) : (servingC s).cur = s.cur := rfl
@[simp] theorem servingC_lfos (s : State) : (servingC s).lfos = s.lfos := rfl
@[simp] theorem servingC_dls (s : State) : (servingC s).dls = s.dls := rfl
@[simp] theorem servingC_mem (s : State) : (servingC s).mem = s.mem := rfl
@[simp] theorem servingC_events (s : State) : (servingC s).events = s.events := rfl
@[simp] theorem servingC_draws (s : State) : (servingC s).draws = s.draws := rfl
@[simp] theorem servingC_unspecs (s : State) : (servingC s).unspecs = s.unspecs := rfl
@[simp] theorem servingC_port (s : State) : (servingC s).ports.port = .c := rfl
@[simp] theorem servingC_aCmds (s : State) : (servingC s).ports.aCmds = s.ports.aCmds := rfl
@[simp] theorem servingC_cCmds (s : State) : (servingC s).ports.cCmds = s.ports.cCmds := rfl
@[simp] theorem servingC_stream (s : State) : (servingC s).ports.stream = s.ports.stream := rfl
@[simp] theorem servingC_si (s : State) : (servingC s).ports.si = s.ports.si := rfl
@[simp] theorem servingC_soRoom (s : State) : (servingC s).ports.soRoom = s.ports.soRoom := rfl
@[simp] theorem servingC_rst (s : State) : (servingC s).ports.rst = s.ports.rst := rfl

/-- Granting a move to the C-port, when it can move. -/
theorem grant_c {s : State} (hc : cReady s = true) : grant .c s = servingC s := by
  cases h : s.ports.aCmds <;> simp [grant, servingC, aReady, hc, h]

/-- The C-port moves when it is served and can move. -/
theorem nextAction_of_cPortServed {s : State} (h : CPortServed s) (hc : cReady s = true) :
    nextAction s = takeC (servingC s) := by
  obtain ⟨hr, ha | ht⟩ := h
  · simp [nextAction, nextPort, hr, aReady, ha, hc, grant_c hc]
  · cases ha : s.ports.aCmds <;> simp [nextAction, nextPort, hr, aReady, ha, hc, ht, grant_c hc]

end Sys2Proof.Machine
end

