-- ==== Sys2Proof/Tests/Slice0.lean ====
section
/-! SUPPORT. Tests of one step each, their expected values taken from spec/95_test_vectors.md, spec/96_derived_vectors.md
and the examples of the rules; the refusals of the well-formedness checks; and, for every statement with hypotheses, a
state and operands that meet them. -/

namespace Sys2Proof.Tests

open Sys2Proof.Machine

set_option Elab.async false

/-! ## Helpers -/

/-- The configuration SMALL of 95_test_vectors.md. -/
def small : Config := { Config.reference with ptab := [{ min := 0, max := 0x41200000, dflt := 0x3F800000 }] }

/-- The reset state of a configuration, with data registers from the list and commands on the given port. -/
def start (cfg : Config) (port : Port) (regs : List Word) : State :=
  { State.resetWith cfg with d := Vector.ofFn fun i => regs.getD i 0, ports := { Ports.idle with port := port } }

/-- `start small`, prepared at 1 Hz with two channels: CAP = 24. -/
def prep (regs : List Word) : State :=
  { start small .a regs with csr := { Csrs.reset with status := 1, sr := 0x3F800000, blk := 1, nch := 2, cap := 24 } }

/-- The state of table T5a: W = 5, taps 0 to 5 of channel 0 are 6.0, 5.0, 4.0, 3.0, 2.0, 1.0. -/
def ramp (regs : List Word) : State :=
  { prep regs with
    dls := (prep regs).dls.set 0 { w := 5, apz := { t0 := 0, t1 := 0, t2 := 0 } }
    mem := ([0x3F800000, 0x40000000, 0x40400000, 0x40800000, 0x40A00000, 0x40C00000] : List Word).zipIdx.foldl
      (fun m x => writeWord m (dlAddr 0 x.2) x.1) [] }

/-- Something of the next state, `none` for a stop. -/
def after {α : Type} (o : Host.Outcome State Fault Refusal) (f : State → α) : Option α :=
  match o with
  | .next t => some (f t)
  | .fault _ => none
  | .refused _ => none

/-- The response of a command. -/
def answer (o : Host.Outcome State Fault Refusal) : Option Word := (after o lastResponse).join.map Response.word

/-- Register 0 of the next state. -/
def d0 (o : Host.Outcome State Fault Refusal) : Option Word := after o fun t => reg t 0

/-- The fault of a stop. -/
def faultOf (o : Host.Outcome State Fault Refusal) : Option Fault :=
  match o with
  | .fault f => some f
  | .next _ => none
  | .refused _ => none

/-- The refusal of a stop. -/
def refusalOf (o : Host.Outcome State Fault Refusal) : Option Refusal :=
  match o with
  | .refused r => some r
  | .next _ => none
  | .fault _ => none

/-! ## Well-formedness: each check refuses an ill-formed command (30_encoding.md R110 (d)) -/

theorem test_wf_prepare_pd : Instr.wf Config.reference (.prepare 0 1 2 4) = false := by decide
theorem test_wf_prepare_pnone : Instr.wf Config.reference (.prepare 0 1 2 31) = true := by decide
theorem test_wf_csrr : Instr.wf Config.reference (.csrr 2 0x42) = false := by decide
theorem test_wf_csrw_ro : Instr.wf Config.reference (.csrw 0x05 1) = false := by decide
theorem test_wf_csrw_reserved : Instr.wf Config.reference (.csrw 0x27 1) = false := by decide
theorem test_wf_getp : Instr.wf Config.reference (.getp 0 4) = false := by decide
theorem test_wf_pmin : Instr.wf Config.reference (.pmin 0 4) = false := by decide
theorem test_wf_pmax : Instr.wf Config.reference (.pmax 0 31) = false := by decide
theorem test_wf_pdef : Instr.wf Config.reference (.pdef 0 4) = false := by decide
theorem test_wf_setp : Instr.wf Config.reference (.setp 4 0) = false := by decide
theorem test_wf_fwd_role : Instr.wf Config.reference (.fwd 5 0) = false := by decide
theorem test_wf_fwd_param : Instr.wf Config.reference (.fwd 4 4) = false := by decide
theorem test_wf_setf : Instr.wf Config.reference (.setf 2 2) = false := by decide
theorem test_wf_lrst : Instr.wf Config.reference (.lrst 2) = false := by decide
theorem test_wf_lnext : Instr.wf Config.reference (.lnext 0 15) = false := by decide
theorem test_wf_setw_osc : Instr.wf Config.reference (.setw 2 0) = false := by decide
theorem test_wf_setw_wave : Instr.wf Config.reference (.setw 0 1) = false := by decide
theorem test_wf_pop_tap : Instr.wf Config.reference (.pop 1 2 0 .linear 3) = false := by decide
theorem test_wf_thr : Instr.wf Config.reference (.thr 3 2) = false := by decide

/-- The reference configuration is well formed; one with a margin below 4 and one with MIN above DEF are not. -/
theorem test_wf_config : Config.reference.wf = true ∧ { Config.reference with capMargin := 3 }.wf = false ∧
    { Config.reference with ptab := [{ min := 0x40000000, max := 0x40400000, dflt := 0x3F800000 }] }.wf = false := by
  decide +kernel

/-! ## Decoding: control words written in the spec's tables (30_encoding.md R116, 95 and 96) -/

/-- The packet of a control word and an immediate, as 30_encoding.md R103 lays it out. -/
def pkt (cw imm : Word) : Packet := cw ++ imm

theorem test_decode_nop : decode (pkt 0x00000000 0) = .ok .nop := by decide
theorem test_decode_prepare : decode (pkt 0x0100821F 0) = .ok (.prepare 0 1 2 31) := by decide
theorem test_decode_release : decode (pkt 0x02000000 0) = .ok .release := by decide
theorem test_decode_ldi : decode (pkt 0x08600000 0x3F000000) = .ok (.ldi 3 0x3F000000) := by decide
theorem test_decode_mov : decode (pkt 0x09A80000 0) = .ok (.mov 5 2) := by decide
theorem test_decode_rdr : decode (pkt 0x0A140000 0) = .ok (.rdr 5) := by decide
theorem test_decode_csrr : decode (pkt 0x0CC00002 0) = .ok (.csrr 6 0x02) := by decide
theorem test_decode_csrw : decode (pkt 0x0D1C0024 0) = .ok (.csrw 0x24 7) := by decide
theorem test_decode_fadd : decode (pkt 0x10050000 0) = .ok (.fadd 0 1 2) := by decide
theorem test_decode_fsub : decode (pkt 0x11050000 0) = .ok (.fsub 0 1 2) := by decide
theorem test_decode_fmul : decode (pkt 0x12FF0000 0) = .ok (.fmul 7 7 6) := by decide
theorem test_decode_fdiv : decode (pkt 0x13050000 0) = .ok (.fdiv 0 1 2) := by decide
theorem test_decode_getp : decode (pkt 0x18400001 0) = .ok (.getp 2 1) := by decide
theorem test_decode_pmin : decode (pkt 0x19000002 0) = .ok (.pmin 0 2) := by decide
theorem test_decode_pmax : decode (pkt 0x1A000002 0) = .ok (.pmax 0 2) := by decide
theorem test_decode_pdef : decode (pkt 0x1B000003 0) = .ok (.pdef 0 3) := by decide
theorem test_decode_setp : decode (pkt 0x1C000002 0x3F666666) = .ok (.setp 2 0x3F666666) := by decide
theorem test_decode_enc : decode (pkt 0x1D000000 0) = .ok .enc := by decide
theorem test_decode_dec : decode (pkt 0x1E000000 0) = .ok .dec := by decide
theorem test_decode_fwd : decode (pkt 0x1F000403 0) = .ok (.fwd 4 3) := by decide
theorem test_decode_setf : decode (pkt 0x20080100 0) = .ok (.setf 1 2) := by decide
theorem test_decode_lrst : decode (pkt 0x21000100 0) = .ok (.lrst 1) := by decide
theorem test_decode_lnext : decode (pkt 0x22600100 0) = .ok (.lnext 3 1) := by decide
theorem test_decode_setw : decode (pkt 0x23000001 0) = .ok (.setw 0 1) := by decide
theorem test_decode_dlw : decode (pkt 0x280C0000 0) = .ok (.dlw 0 3) := by decide
theorem test_decode_dladv : decode (pkt 0x29000100 0) = .ok (.dladv 1) := by decide
theorem test_decode_push : decode (pkt 0x2A080000 0) = .ok (.push 0 2) := by decide
theorem test_decode_pop : decode (pkt 0x2B280006 0) = .ok (.pop 1 2 0 .allpass 1) := by decide
theorem test_decode_dlfb : decode (pkt 0x2C177000 0) = .ok (.dlfb 0 5 6 7) := by decide
theorem test_decode_shape : decode (pkt 0x30040000 0) = .ok (.shape 0 1) := by decide
theorem test_decode_thr : decode (pkt 0x31080002 0) = .ok (.thr 2 2) := by decide
theorem test_decode_trem : decode (pkt 0x38050000 0) = .ok (.trem 0 1 2) := by decide
theorem test_decode_dly : decode (pkt 0x39040000 0) = .ok (.dly 0 1 0) := by decide
theorem test_decode_chor : decode (pkt 0x3A050100 0) = .ok (.chor 0 1 2 1) := by decide
theorem test_decode_dist : decode (pkt 0x3B040000 0) = .ok (.dist 0 1) := by decide

/-- Reserved opcodes, an unused bit, and an immediate where none is used are refused by name (R107, R110). -/
theorem test_decode_refuses : decode (pkt 0x03000000 0) = .error .opcode ∧ decode (pkt 0x3C000000 0) = .error .opcode ∧
    decode (pkt 0x00000001 0) = .error .unused ∧ decode (pkt 0x1D000000 1) = .error .unused ∧
    decode (pkt 0x18400021 0) = .error .unused := by decide

/-- The table's numbering (log 14): a 32-bit row is the control word, the immediate zero. -/
theorem test_table_word : decodeTableWord 32 0x2B280001 = some (.pop 1 2 0 .linear 0) ∧
    decodeTableWord 32 0x1C000002 = some (.setp 2 0) ∧ decodeTableWord 32 0x3C000000 = none := by decide

/-- `step` runs the word `withFetchWord` presents, on the port that accepts it. -/
theorem test_fetch : answer (step (State.reset.withFetchWord 32 0x18400001)) = some 0x3E4CCCCD ∧
    answer (step (State.reset.withFetchWord 32 0x1D000000)) = none ∧
    after (step (State.reset.withFetchWord 32 0x1D000000)) (fun t => t.ports.stream != .idle) = some true := by
  decide +kernel

/-! ## Numeric primitives (table T1) -/

theorem test_fadd : fadd 0x3DCCCCCD 0x3E4CCCCD = 0x3E99999A ∧ fadd 0x00000001 0x00000001 = 0x00000002 := by decide +kernel
theorem test_fmul : fmul 0x7F7FFFFF 0x40000000 = 0x7F800000 ∧ fmul 0 0x7F800000 = qNaN := by decide +kernel
theorem test_fdiv : fdiv 0x3F800000 0x40400000 = 0x3EAAAAAB ∧ fdiv 0xBF800000 0 = 0xFF800000 := by decide +kernel
theorem test_fsqrt : fsqrt 0x40400000 = 0x3FDDB3D7 ∧ fsqrt 0x80000000 = 0x80000000 := by decide +kernel
theorem test_round_to_integer : ffloor 0xBF000000 = 0xBF800000 ∧ fceil 0xBF000000 = 0x80000000 ∧
    frint 0x40200000 = 0x40000000 ∧ frint 0x40600000 = 0x40800000 := by decide +kernel
theorem test_fmodt : fmodt 0xC0B00000 0x40800000 = 0xBFC00000 ∧ fmodt 0x40E00000 twoPi = 0x3F378128 := by decide +kernel
theorem test_conversions : u2f 16777217 = 0x4B800000 ∧ f2u 0x47AC4400 = 88200 ∧ pow2 31 = 0x4F000000 := by decide +kernel
theorem test_clampf : clampf 0xFF800000 0 fOne = 0 ∧ clampf 0x80000000 0 fOne = 0x80000000 := by decide +kernel
theorem test_fsin : fsin Config.reference 0x40490FDB = 0xB3BBBD2E ∧ fsin Config.reference 0x4016CBE4 = 0x3F3504F3 := by
  decide +kernel
theorem test_fatan : fatan Config.reference 0x3F800000 = 0x3F490FDB ∧ fatan Config.reference 0xFF800000 = 0xBFC90FDB := by
  decide +kernel

/-! ## System and data movement (tables T2a, T2b) -/

theorem test_nop : answer (exec .nop State.reset) = some 0 := by decide +kernel

/-- T2a row 10. -/
theorem test_prepare : after (exec (.prepare 0 1 2 1) (start Config.reference .a [0x472C4400, 0x200]))
    (fun t => (t.csr.status, t.csr.sr, t.csr.blk, t.csr.nch, t.csr.cap)) = some (1, 0x472C4400, 512, 2, 88204) := by
  decide +kernel

/-- T2a rows 12 and 16: rejected for `nch`, and for the capacity. -/
theorem test_prepare_rejects : answer (exec (.prepare 0 1 3 1) (start Config.reference .a [0x472C4400, 0x200])) = some 4 ∧
    answer (exec (.prepare 0 1 2 1) (start Config.reference .a [0x483B8000, 0x200])) = some 4 := by decide +kernel

theorem test_release : after (exec .release (prep [])) (fun t => (t.csr.status, t.csr.cap)) = some (0, 24) := by decide +kernel
theorem test_ldi : after (exec (.ldi 3 0x3F000000) State.reset) (fun t => (reg t 3, reg t 2)) = some (0x3F000000, 0) := by
  decide +kernel
theorem test_mov : after (exec (.mov 5 1) (start Config.reference .a [0, 0x7FC12345])) (fun t => (reg t 5, reg t 1)) =
    some (0x7FC12345, 0x7FC12345) := by decide +kernel
theorem test_rdr : answer (exec (.rdr 1) (start Config.reference .a [0, 0x3DCCCCCD])) = some 0x3DCCCCCD := by decide +kernel
theorem test_csrr : answer (exec (.csrr 0 0x18) State.reset) = some 0x7F800000 ∧
    answer (exec (.csrr 0 0x06) State.reset) = some 4 := by decide +kernel
theorem test_csrr_view : answer (exec (.csrr 0 0x70) (ramp [])) = some 5 := by decide +kernel
theorem test_csrw_warl : after (exec (.csrw 0x15 1) (start Config.reference .a [0, 40])) (fun t => t.csr.kbits) = some 32 ∧
    after (exec (.csrw 0x26 1) (start Config.reference .a [0, 0xFFFFFFFE])) (fun t => t.csr.kinterp) = some 2 := by
  decide +kernel
theorem test_csrw_rw : after (exec (.csrw 0x22 1) (start Config.reference .a [0, 0x7FC12345])) (fun t => t.csr.kmix) =
    some 0x7FC12345 := by decide +kernel

/-- T2b row 14: CAP is read only, the command is suppressed. -/
theorem test_suppressed : after (exec (.csrw 0x05 1) (start Config.reference .a [0, 7]))
    (fun t => (t.csr.status, t.csr.cap, lastResponse t)) = some (2, 0, some { port := .a, word := 0 }) := by decide +kernel

/-! ## Arithmetic (table T2c) -/

theorem test_exec_fadd : d0 (exec (.fadd 0 1 2) (start small .a [0, 0x3F800000, 0x3DCCCCCD])) = some 0x3F8CCCCD := by decide +kernel
theorem test_exec_fsub : d0 (exec (.fsub 0 1 2) (start small .a [0, 0x00800000, 0x00000001])) = some 0x007FFFFF := by decide +kernel
theorem test_exec_fmul : d0 (exec (.fmul 0 1 2) (start small .a [0, 0x472C4400, 0x3E4CCCCD])) = some 0x4609D000 := by decide +kernel
theorem test_exec_fmul_alias : after (exec (.fmul 1 1 1) (start small .a [0, 0x40400000])) (fun t => reg t 1) =
    some 0x41100000 := by decide +kernel
theorem test_exec_fdiv : d0 (exec (.fdiv 0 1 2) (start small .a [0, 0x3F800000, 0x80000000])) = some 0xFF800000 := by decide +kernel

/-! ## Parameter store (table T3) -/

theorem test_getp : answer (exec (.getp 2 1) State.reset) = some 0x3E4CCCCD := by decide +kernel
theorem test_getp_c : after (exec (.getp 0 1) (start Config.reference .c [7])) (fun t => (reg t 0, lastResponse t)) =
    some (7, some { port := .c, word := 0x3E4CCCCD }) := by decide +kernel
theorem test_pmin : answer (exec (.pmin 0 2) State.reset) = some 0 := by decide +kernel
theorem test_pmax : answer (exec (.pmax 0 2) State.reset) = some 0x3F400000 := by decide +kernel
theorem test_pdef : answer (exec (.pdef 0 3) (start Config.reference .c [])) = some 0x3F000000 := by decide +kernel
theorem test_setp : after (exec (.setp 2 0x3F666666) (start Config.reference .c [])) (fun t => (param t 2, t.events.notify)) =
    some (0x3F400000, [{ p := 2, v := 0x3F400000 }]) := by decide +kernel
theorem test_setp_nan : after (exec (.setp 1 0x7FC00000) (start Config.reference .c [])) (fun t => (param t 1, t.events.notify)) =
    some (0x3E4CCCCD, []) := by decide +kernel
theorem test_fwd : after (exec (.fwd 4 3) State.reset) (fun t => t.events.fwd) = some [{ k := 4, v := 0x3F000000 }] := by
  decide +kernel

/-- R281, the example; and a consumer that takes three bytes only. -/
theorem test_enc : after (exec .enc { start Config.reference .c [] with ports := { Ports.idle with port := .c, soRoom := 16 } })
      (fun t => (t.events.so.map StreamByte.byte, (t.events.so.map StreamByte.last).count true, lastResponse t)) =
    some ([0, 0, 0x80, 0x3F, 0xCD, 0xCC, 0x4C, 0x3E, 0xCD, 0xCC, 0x4C, 0x3E, 0, 0, 0, 0x3F], 1,
      some { port := .c, word := 16 }) := by decide +kernel
theorem test_enc_waits : after (exec .enc { start Config.reference .c [] with ports := { Ports.idle with port := .c, soRoom := 3 } })
      (fun t => (t.events.so.length, t.ports.soRoom, lastResponse t)) = some (3, 0, none) := by decide +kernel

/-- R283, the example's third group after two: 0.9 is clamped to 0.75. -/
theorem test_dec : after (exec .dec { start Config.reference .c [] with ports := { Ports.idle with
        port := .c, si := [0x00, 0x00, 0x00, 0x40, 0x66].map (fun b => { byte := b, last := false }) } })
      (fun t => (param t 0, t.events.notify, t.ports.si.length)) = some (0x40000000, [{ p := 0, v := 0x40000000 }], 1) := by
  decide +kernel
theorem test_dec_last : after (step { start Config.reference .c [] with ports := { Ports.idle with
        stream := .dec 2 [0x66, 0x66], si := [{ byte := 0x66, last := false }, { byte := 0x3F, last := true }] } })
      (fun t => (param t 2, lastResponse t)) = some (0x3F400000, some { port := .c, word := 3 }) := by decide +kernel

/-! ## Oscillators (table T4, S3) -/

theorem test_setf : after (exec (.setf 1 2) (start small .a [0, 0, 0x7F800000])) (fun t => (lfo t 1).freq) = some fltMax ∧
    after (exec (.setf 0 2) (start small .a [0, 0, 0xC0A00000])) (fun t => (lfo t 0).freq) = some 0 := by decide +kernel
theorem test_lrst : after (exec (.lrst 1) (setLfo 1 { freq := 7, phase := 0x40490FDB, wave := 0 } State.reset))
    (fun t => (lfo t 1).phase) = some 0 := by decide +kernel
/-- A waveform that the configuration names (00_scope.md R6): w = 1 is a table with 1.0 at the operand 0.5. -/
theorem test_waveform_of_configuration :
    waveFn { small with waves := [.table [(0x3F000000, 0x3F800000)]] } 1 0x3F000000 = 0x3F800000 := by decide +kernel

theorem test_setw : after (exec (.setw 0 1) (start { small with waves := [.any 0] } .a [])) (fun t => (lfo t 0).wave) = some 1 := by
  decide +kernel

/-- S3 row 3, with SR = 8.0 and FREQ = 2.0; and the fault of T4 row 6. -/
theorem test_lnext : after (exec (.lnext 3 0) (setLfo 0 { freq := 0x40000000, phase := 0, wave := 0 }
      { prep [] with csr := { (prep []).csr with sr := 0x41000000 } })) (fun t => (reg t 3, (lfo t 0).phase)) =
    some (0x3F800000, 0x3FC90FDB) := by decide +kernel
theorem test_lnext_fault : faultOf (exec (.lnext 3 0) (setLfo 0 { freq := fltMax, phase := 0, wave := 0 } (prep []))) =
    some .nonfinitePhase := by decide +kernel

/-! ## Delay lines (tables T5a to T5c) -/

theorem test_dlw : after (exec (.dlw 0 2) (ramp [0, 0, 0x7FC12345])) (fun t => (sample t 0 5, (dline t 0).w)) =
    some (0x7FC12345, 5) := by decide +kernel
theorem test_dladv : after (exec (.dladv 0) (setDline 0 { w := 23, apz := ⟨0, 0, 0⟩ } (prep []))) (fun t => (dline t 0).w) =
    some 0 := by decide +kernel
theorem test_push : after (exec (.push 0 2) (ramp [0, 0, 0x40800000])) (fun t => (sample t 0 5, (dline t 0).w, (dline t 1).w)) =
    some (0x40800000, 6, 0) := by decide +kernel
theorem test_pop_linear : answer (exec (.pop 1 2 0 .linear 0) (ramp [0, 0, 0x3DCCCCCD])) = some 0x40BCCCCC ∧
    answer (exec (.pop 1 2 0 .none 0) (ramp [0, 0, 0x40200000])) = some 0x40800000 := by decide +kernel
theorem test_pop_cubic : answer (exec (.pop 1 2 0 .cubic 0) (ramp [0, 0, 0x40900000])) = some 0x3FC00000 ∧
    after (exec (.pop 1 2 0 .allpass 1) (ramp [0, 0, 0x3FA00000])) (fun t => ((dline t 0).apz.t1, (dline t 0).apz.t0)) =
      some (0x40E00000, 0) := by decide +kernel
theorem test_pop_fault : faultOf (exec (.pop 1 2 0 .none 0) (ramp [0, 0, 0x41BC0000])) = some .delayRange ∧
    faultOf (exec (.pop 1 2 0 .cubic 0) (ramp [0, 0, 0x3F000000])) = some .delayRange := by decide +kernel

/-- R214, the example. -/
theorem test_dlfb : after (exec (.dlfb 0 5 6 7) (ramp [0, 0, 0, 0, 0, 0x40C00000, 0x40800000, 0x3F000000]))
    (fun t => (sample t 0 5, (dline t 0).w)) = some (0x41000000, 6) := by decide +kernel

/-! ## Waveshaper (tables T6a, T6b) -/

/-- `start small` with a mode and an edit of the control registers. -/
def shaper (mode x : Word) (edit : Csrs → Csrs) : State :=
  { start small .a [0, x] with csr := edit { Csrs.reset with mode := mode } }

theorem test_shape_soft : d0 (exec (.shape 0 1) (shaper 1 0xBF000000 id)) = some 0xBE972028 ∧
    d0 (exec (.shape 0 1) (shaper 2 0xC0000000 fun x => { x with kcubic := 0x3F800000 })) = some 0xBEC511A3 ∧
    d0 (exec (.shape 0 1) (shaper 3 0x3F7D70A4 id)) = some 0x403EB852 ∧
    d0 (exec (.shape 0 1) (shaper 4 0xBF666666 fun x => { x with kloth := 0x3E4CCCCD, khith := 0x3F000000 })) =
      some 0xBF199999 := by decide +kernel
theorem test_shape_hard : d0 (exec (.shape 0 1) (shaper 5 0xBE99999A fun x => { x with kbits := 3 })) = some 0xBE800000 ∧
    d0 (exec (.shape 0 1) (shaper 7 0xBF4CCCCD fun x => { x with kfold := 0x3F000000 })) = some 0xBE4CCCCC ∧
    d0 (exec (.shape 0 1) (shaper 9 0x7FC12345 id)) = some 0x7FC12345 ∧
    after (exec (.shape 0 1) (shaper 6 0x3F4CCCCD id)) (fun t => t.draws) = some 1 := by decide +kernel
theorem test_thr : after (exec (.thr 2 2) (start small .a [0, 0, 0x40800000])) (fun t => t.csr.kfold) = some 0x3E800000 ∧
    after (exec (.thr 1 2) (start small .a [0, 0, 0x7FC00000])) (fun t => (t.csr.khith, t.csr.kloth)) =
      some (0x49800000, 0) := by decide +kernel

/-! ## Effect kernels (tables S6, T7a, T7b, R266, R268) -/

theorem test_trem : d0 (exec (.trem 0 1 2) { start small .a [0, 0x3F4CCCCD, 0xBF800000] with
    csr := { Csrs.reset with kdepth := fOne } }) = some 0xBF4CCCCD := by decide +kernel

/-- T7b: a delay of zero sees the dry sample just written. -/
theorem test_dly : after (exec (.dly 0 1 0) { prep [0, fOne] with csr := { (prep []).csr with kfb := 0x3F000000, kmix := 0x3F000000 } })
    (fun t => (reg t 0, sample t 0 0, (dline t 0).w)) = some (0x3F400000, 0x3FC00000, 1) := by decide +kernel

/-- Two taps over the ramp: delays 4.0 and 2.0 (depth 0), mix 1.0: (2.0 + 4.0) / 2. -/
theorem test_chor : after (exec (.chor 0 1 2 0) { ramp [0, 0x40C00000, 0] with
      csr := { (prep []).csr with kdelay := 0x40800000, kmix := fOne, kntap := 2 } })
    (fun t => (reg t 0, sample t 0 5, (dline t 0).w)) = some (0x40400000, 0x40C00000, 6) := by decide +kernel
theorem test_dist : d0 (exec (.dist 0 1) (shaper 7 0x3EB33333 fun x => { x with kfold := 0x3F000000, kgain := 0x40000000 })) =
    some 0x3E99999A := by decide +kernel

/-! ## Witnesses: states and operands that meet the hypotheses of the statements -/

/-- The outcome is a next state. -/
def isNext (o : Host.Outcome State Fault Refusal) : Bool :=
  match o with
  | .next _ => true
  | .fault _ => false
  | .refused _ => false

/-- A state with packets presented on the two ports. -/
def presenting (a c : List Packet) (turn : Port) : State :=
  { State.reset with ports := { Ports.idle with aCmds := a, cCmds := c, turn := turn } }

/-- The reset state with a transfer in progress on the C-port. -/
def transferring (x : Stream) (si : List StreamByte) (room : Nat) : State :=
  { State.reset with ports := { Ports.idle with stream := x, si := si, soRoom := room } }

/-- The model is to run on where 60_exceptions.md R296 asks a model to stop. -/
def running (s : State) : State := { s with cfg := { s.cfg with openPoints := .run } }

theorem witness_EncodeDecode : decode 0x2B28000100000000 = .ok (.pop 1 2 0 .linear 0) := by decide

theorem witness_StepRunsDecodedCommand :
    decode 0 = .ok .nop ∧ cReady (presenting [0, 0] [] .c) = false ∧
      cReady (presenting [0] [0] .a) = true ∧ (presenting [0] [0] .a).ports.turn = .a ∧
      (presenting [] [0] .a).ports.stream = .idle ∧ (presenting [] [0] .a).ports.aCmds = [] ∧
      (presenting [0] [0] .c).ports.aCmds ≠ [] ∧ (presenting [0] [0] .c).ports.turn = .c ∧
      (presenting [0] [0] .c).ports.rst = false := by decide

theorem witness_StepOtherwise :
    { State.reset with ports := { Ports.idle with rst := true } }.ports.rst = true ∧
      (∃ e, decode 0x0300000000000000 = .error e) ∧ cReady (presenting [0x0300000000000000] [] .a) = false ∧
      (presenting [] [0x0300000000000000] .a).ports.stream = .idle ∧
      (State.reset.ports.rst = false ∧ State.reset.ports.cCmds = []) ∧
      0 < (transferring (.enc [{ byte := 1, last := true }]) [] 1).ports.soRoom ∧
      (transferring (.dec 0 []) [{ byte := 1, last := true }] 0).ports.si ≠ [] ∧
      (transferring (.enc [{ byte := 1, last := true }]) [] 0).ports.soRoom = 0 ∧
      (transferring (.dec 0 []) [] 0).ports.si = [] := ⟨rfl, ⟨.opcode, by decide⟩, by decide⟩

/-- A transfer in progress with an A-port packet waiting and the C-port's turn. -/
def contestedTransfer (x : Stream) (si : List StreamByte) (room : Nat) : State :=
  { State.reset with ports := { Ports.idle with aCmds := [0], turn := .c, stream := x, si := si, soRoom := room } }

theorem witness_StepOtherwise_contested :
    (presenting [0x0300000000000000] [0] .a).ports.turn = .a ∧
      cReady (presenting [0x0300000000000000] [0] .a) = true ∧
      CPortServed (presenting [0] [0x0300000000000000] .c) ∧ CPortServed (presenting [] [0x0300000000000000] .a) ∧
      CPortServed (contestedTransfer (.enc [⟨1, true⟩]) [] 1) ∧ CPortServed (transferring (.enc [⟨1, true⟩]) [] 1) ∧
      CPortServed (contestedTransfer (.dec 0 []) [⟨1, true⟩] 0) := by
  unfold CPortServed
  decide

theorem witness_SuppressedCommand :
    illegality (.csrw 0x05 1) State.reset ≠ none ∧ illegality (.dlw 2 0) (prep []) = some .channel ∧
      illegalSeen (suppress State.reset) = true ∧ isNext (exec .nop (suppress State.reset)) = true ∧
      prepared (setReg 0 7 State.reset) = prepared State.reset := by decide +kernel

theorem witness_SuppressedCommand_noCommand :
    let s := presenting [0x9000000000000000] [] .a
    nextAction s = .command 0x9000000000000000 { s with ports := Ports.idle } ∧
      decode 0x9000000000000000 = .error .opcode := by decide +kernel

theorem witness_PreparedGate :
    prepared State.reset = false ∧ (Instr.lnext 0 0).op = .lnext ∧ (Instr.chor 0 0 0 15).op = .chor ∧
      (Instr.nop).op ∉ [Op.lnext, .dlw, .dladv, .push, .pop, .dlfb, .dly, .chor] := by decide +kernel

theorem witness_PortRights :
    (Instr.setp 0 0).op.onPort (start small .a []).ports.port = false ∧
      (Instr.ldi 0 0).op.onPort (start small .c []).ports.port = false ∧ (1 : Reg) ≠ 0 ∧
      isNext (exec (.ldi 0 1) State.reset) = true := by decide +kernel

theorem witness_NopDoesNothing : cwOp (packetCw 0) = 0 ∧ cwOp (packetCw 1) = 0 := by decide

/-- With a delay parameter and the largest channel count; without one and with the least. -/
theorem witness_PrepareSucceeds :
    (let s := start small .a [0x3F800000, 1]
    (0 : ParamIdx).toNat < s.cfg.nParam ∧ isFinite (reg s 0) = true ∧ fgt (reg s 0) fZero = true ∧ reg s 1 ≠ 0 ∧
      (2 : Chan).toNat ≤ s.cfg.nCh ∧ isNaN (fceil (fmul (paramMax s 0) (reg s 0))) = false ∧
      flt (fceil (fmul (paramMax s 0) (reg s 0))) fZero = false ∧
      fgt (fceil (fmul (paramMax s 0) (reg s 0))) (u2f s.cfg.capMax) = false ∧
      2 * f2u (fceil (fmul (paramMax s 0) (reg s 0))) + s.cfg.capMargin ≤ s.cfg.capMax) ∧
    (let s := start Config.reference .a [0x7F7FFFFF, 0xFFFFFFFF]
    isFinite (reg s 0) = true ∧ fgt (reg s 0) fZero = true ∧ reg s 1 ≠ 0 ∧ 1 ≤ (1 : Chan).toNat ∧
      2 * f2u fZero + s.cfg.capMargin ≤ s.cfg.capMax) := by decide +kernel

/-- One rejected PREPARE for each of the tests (a) to (e). -/
theorem witness_PrepareRejects :
    isNaN 0x7FC00000 = true ∧ isInf 0x7F800000 = true ∧ fle 0x00000000 fZero = true ∧ (0 : Word) = 0 ∧
      (0 : Chan) = 0 ∧ Config.reference.nCh < (3 : Chan).toNat ∧
      flt (fceil (fmul (paramMax State.reset 1) 0x49000000)) fZero = false ∧
      fgt (fceil (fmul (paramMax State.reset 1) 0x49000000)) (u2f Config.reference.capMax) = true ∧
      Config.reference.capMax < 2 * f2u (fceil (fmul (paramMax State.reset 1) 0x483B8000)) + Config.reference.capMargin ∧
      isNaN (fceil (fmul (paramMax (start { small with ptab := [{ min := 0, max := 0, dflt := 0 }] } .a []) 0) 0x7F800000)) =
        true ∧
      flt (fceil (fmul (paramMax (start { small with ptab := [{ min := 0xC0000000, max := 0xBF800000, dflt := 0xBF800000 }] }
        .a []) 0) 0x3F800000)) fZero = true := by decide +kernel

theorem witness_PrepareIsIdempotent :
    isNext (exec (.prepare 0 1 2 0) (start small .a [0x3F800000, 1])) = true ∧
      isNext (exec (.prepare 0 1 0 31) (start small .a [0x3F800000, 1])) = true := by decide +kernel

theorem witness_ReleaseAndDataMovement : (start small .a []).ports.port = .a := rfl

theorem witness_CsrMap : Config.reference.nCh ≤ 15 ∧ (1 : Chan).toNat < Config.reference.nCh := by decide

theorem witness_CsrrReads :
    csrAt Config.reference 0x26 = some .kinterp ∧ csrAt Config.reference 0x41 = some (.lfreq 1) ∧
      csrAt Config.reference 0x50 = some (.lphase 0) ∧ csrAt Config.reference 0x61 = some (.lwave 1) ∧
      csrAt Config.reference 0x71 = some (.widx 1) ∧ (1 : Chan).toNat < Config.reference.nCh ∧
      State.reset.ports.port = .a := by decide

theorem witness_CsrwWrites :
    csrAt Config.reference 0x10 = some .mode ∧ csrAccess .mode = .rw ∧ csrAt Config.reference 0x01 = some .ctrl ∧
      csrAt Config.reference 0x15 = some .kbits ∧ csrAt Config.reference 0x25 = some .kntap ∧
      csrAt Config.reference 0x26 = some .kinterp ∧ csrAccess .kinterp ≠ .ro ∧ Csr.status ≠ .mode := by decide

theorem witness_KbitsIsClamped :
    isNext (step State.reset) = true ∧ 1 ≤ State.reset.csr.kbits.toNat ∧ State.reset.csr.kbits.toNat ≤ 32 := by
  decide +kernel

theorem witness_ArithmeticCommands : State.reset.ports.port = .a := rfl

/-- A tie: 2^24 + 1 units lie half way between 2^24 and 2^24 + 2. -/
theorem witness_RoundingIsNearestEven :
    (0 : Nat) < 1 ∧ fround false (2 ^ 24 + 1) 1 = 0x01000000 ∧ isNaN 0x01000001 = false ∧
      f32Mag 0x01000000 = 2 ^ 24 ∧ f32Mag 0x01000001 = 2 ^ 24 + 2 ∧ isFinite 0x7F7FFFFF = true ∧
      isFinite 0x80000001 = true ∧ f32Mag 0x80000001 ≠ 0 ∧ f32Val 0x80000000 + f32Val 0x80000000 = 0 ∧
      isFinite 0x80000000 = true ∧ 0 ≤ f32Val 0x80000000 ∧ 0 ≤ f32Val 0x7F7FFFFF := by decide +kernel

theorem witness_ArithmeticCorners :
    isNaN 0x7FC12345 = true ∧ isFinite 0x00000001 = true ∧ f32Mag 0x00000001 ≠ 0 ∧ isNaN 0x7F800000 = false ∧
      isInf 0x7F800000 = true ∧ isInf 0xFF800000 = true ∧ f32Neg 0x7F800000 ≠ f32Neg 0xFF800000 ∧
      isZero 0x80000000 = true ∧ isZero 0x7F800000 = false ∧ isFinite 0x80000000 = true ∧
      f32Neg 0xFF800000 = true ∧ isZero 0xFF800000 = false := by decide +kernel

theorem witness_IntegralRounding : (2 ^ 24 - 1 : Nat) < 2 ^ 24 ∧ isFinite 0x40200000 = true ∧
    2 * (f32Val (frint 0x40200000) - f32Val 0x40200000).natAbs = 2 ^ 149 := by decide +kernel

theorem witness_FmodtIsExact :
    isFinite 0x40E00000 = true ∧ isFinite 0x00000001 = true ∧ f32Mag 0x00000001 ≠ 0 ∧ isInf 0xFF800000 = true ∧
      isZero 0x80000000 = true := by decide +kernel

theorem witness_ClampfClamps :
    fle 0x00000000 0x3F800000 = true ∧ isNaN 0xBF800000 = false ∧ flt 0xBF800000 0x00000000 = true ∧
      flt 0x3F800000 0x40000000 = true ∧ flt 0x80000000 0x00000000 = false ∧ flt 0x3F800000 0x80000000 = false ∧
      isInf 0xFF800000 = true ∧ f32Neg 0xFF800000 = true ∧ isFinite 0x00000000 = true ∧ isInf 0x7F800000 = true ∧
      f32Neg 0x7F800000 = false := by decide +kernel

theorem witness_ParameterReadsAndFwd :
    (3 : ParamIdx).toNat < Config.reference.nParam ∧ (start small .c []).ports.port = .c ∧ (4 : Chan).toNat ≤ 4 := by decide

theorem witness_SetpStores : (3 : ParamIdx).toNat < Config.reference.nParam ∧ isNaN 0x7FC00000 = true ∧
    isNaN 0x7F800000 = false := by decide +kernel

theorem witness_NotifyComesFromSetters :
    isNext (exec .nop State.reset) = true ∧ (Instr.nop).op ≠ .setp ∧ (Instr.nop).op ≠ .dec ∧
      isNext (step (presenting [] [encode (.setp 0 0)] .a)) = true ∧
      (presenting [] [encode (.setp 0 0)] .a).ports.rst = false := by decide +kernel

theorem witness_OscillatorWrites : (1 : Chan).toNat < Config.reference.nCh ∧ isNaN 0x7FC00000 = true ∧
    isNaN 0xFF800000 = false ∧ (0 : BitVec 2).toNat < Config.reference.nWave := by decide +kernel

theorem witness_LnextAdvances : (1 : Chan).toNat < (prep []).cfg.nCh ∧ prepared (prep []) = true ∧
    isFinite (advancedPhase (prep []) 1) = true ∧ (lfo (prep []) 1).wave = 0 ∧
    (running (prep [])).cfg.openPoints = .run := by decide +kernel

theorem witness_TranscendentalProperties : isFinite 0x7F7FFFFF = true ∧ isFinite 0x7F800000 = false ∧
    isNaN 0x7F800000 = false ∧ isInf 0xFF800000 = true ∧ isNaN 0x7FC00000 = true ∧
    { Config.reference with num := .any }.num = .any ∧ fle 0x80000000 0x00000000 = true ∧
    fle fZero 0x40C90FDA = true ∧ flt 0x40C90FDA twoPi = true ∧ isFinite 0x40C90FDA = true := by decide +kernel

theorem witness_DelayLineWrites : (1 : Chan).toNat < (ramp []).csr.nch.toNat ∧ prepared (ramp []) = true ∧
    memoryWf (ramp []).mem ∧ (ramp []).ports.port = .a := by decide +kernel

theorem witness_TapReadValues : feq (fsub 0x41B80000 (ffloor 0x41B80000)) fZero = true ∧
    feq (fsub 0x3FA00000 (ffloor 0x3FA00000)) fZero = false := by decide +kernel

/-- The bounds of each mode for CAP = 24 (table T5a). -/
theorem witness_PopReads :
    (2 : BitVec 2) ≠ 3 ∧ delayInRange (ramp [0x41BB3333]) (reg (ramp [0x41BB3333]) 0) .none = true ∧
      delayInRange (ramp []) 0x41B40000 .linear = true ∧ delayInRange (ramp []) 0x41B80000 .linear = true ∧
      delayInRange (ramp []) 0x41B40000 .allpass = true ∧ delayInRange (ramp []) 0x41AC0000 .cubic = true ∧
      delayInRange (ramp []) 0x3F800001 .cubic = true ∧ delayInRange (ramp []) 0x80000000 .cubic = true := by
  decide +kernel

theorem witness_DelayLineRoundTrip : memoryWf (ramp []).mem ∧ (dline (ramp []) 0).w < cap (ramp []) ∧
    cap (ramp []) ≤ 2 ^ 24 ∧ (List.replicate 23 (7 : Word)).length < cap (ramp []) := by decide +kernel

theorem witness_ShapeAndDist : State.reset.ports.port = .a ∧
    State.reset.cfg.unspecMode ≠ some State.reset.csr.mode.toNat ∧
    (running State.reset).cfg.openPoints = .run := by decide +kernel

/-- Each case of the threshold gap, with thresholds 0.2 and 0.5. -/
theorem witness_TransferFunctions :
    flt (fabs 0x3DCCCCCD) 0x3E4CCCCD = true ∧
      (flt (fabs 0xBE99999A) 0x3E4CCCCD = false ∧ fle (fabs 0xBE99999A) 0x3F000000 = true) ∧
      (flt (fabs 0x3F666666) 0x3E4CCCCD = false ∧ fle (fabs 0x3F666666) 0x3F000000 = false ∧
        fgt (fabs 0x3F666666) 0x3F000000 = true) ∧
      (flt (fabs 0x7FC00000) 0x3E4CCCCD = false ∧ fle (fabs 0x7FC00000) 0x3F000000 = false ∧
        fgt (fabs 0x7FC00000) 0x3F000000 = false) ∧
      fge 0x3F800000 0x3F800000 = true ∧ fle 0x80000000 0x00000000 = true ∧ isNaN 0x7FC00000 = true ∧
      Config.reference.gapClamp = .nearer ∧ { Config.reference with gapClamp := .low }.gapClamp = .low := by decide +kernel

theorem witness_UnknownModePassesThrough : ¬ (1 ≤ (0 : Word).toNat ∧ (0 : Word).toNat ≤ 7) ∧
    ¬ (1 ≤ (8 : Word).toNat ∧ (8 : Word).toNat ≤ 7) ∧ Config.reference.wf = true ∧
    ¬ (1 ≤ State.reset.csr.mode.toNat ∧ State.reset.csr.mode.toNat ≤ 7) := by decide +kernel

theorem witness_SoftClipIsBounded : isNaN (fmul 0x3F800000 0x7F800000) = false := by decide +kernel

theorem witness_IdentitySettings : isNaN 0x7F800000 = false ∧ f32Neg 0x7F800000 = false ∧ isNaN 0x80000000 = false := by
  decide +kernel

theorem witness_ThrDerives : State.reset.ports.port = .a := rfl

theorem witness_TremComputes : State.reset.ports.port = .a ∧ State.reset.csr.kdepth = 0 ∧
    isFinite (reg State.reset 0) = true := by decide +kernel

theorem witness_DlyComputes : (1 : Chan).toNat < (ramp []).csr.nch.toNat ∧ memoryWf (ramp []).mem ∧
    delayInRange (ramp []) (ramp []).csr.kdelay (kernelInterp (ramp [])) = true := by decide +kernel

/-- The three tap counts, with every delay in range. -/
theorem witness_ChorComputes :
    ∀ n ∈ [1, 2, 3], ∀ j ∈ [1, 2, 3],
      let s := { ramp [] with csr := { (ramp []).csr with kntap := BitVec.ofNat 32 n, kdelay := 0x40C00000 } }
      s.csr.kntap.toNat = n ∧ memoryWf s.mem ∧
        delayInRange s (fmul (fdiv s.csr.kdelay (u2f j)) (fadd fOne (fmul (reg s 0) (fdiv s.csr.kdepth (u2f n)))))
          (kernelInterp s) = true := by decide +kernel

theorem witness_EncEmitsImage : Config.reference.nParam ≤ 31 ∧ (3 : Nat) < Config.reference.nParam ∧
    4 * Config.reference.nParam ≤ (transferring .idle [] 16).ports.soRoom ∧
    (transferring .idle [] 15).ports.soRoom < 4 * Config.reference.nParam ∧ (start small .c []).ports.port = .c := by decide

/-- Two bytes kept: a consumer that takes both, and one that takes only one. -/
theorem witness_EncEmitsImage_later :
    let s := contestedTransfer (.enc [⟨1, false⟩, ⟨2, true⟩]) [] 2
    let u := transferring (.enc [⟨1, false⟩, ⟨2, true⟩]) [] 1
    CPortServed s ∧ s.ports.stream = .enc [⟨1, false⟩, ⟨2, true⟩] ∧ 0 < s.ports.soRoom ∧ 2 ≤ s.ports.soRoom ∧
      CPortServed u ∧ u.ports.stream = .enc [⟨1, false⟩, ⟨2, true⟩] ∧ 0 < u.ports.soRoom ∧ u.ports.soRoom < 2 := by
  unfold CPortServed
  decide

theorem witness_DecTakesAGroup :
    let b : StreamByte := { byte := 0x40, last := false }
    0 < Config.reference.nParam ∧ b.last = false ∧ { b with last := true }.last = true ∧
      (transferring .idle [b, b, b, b] 0).ports.si = b :: b :: b :: b :: [] ∧
      (transferring .idle [b, b, b] 0).ports.si = [b, b, b] ∧ (∀ x ∈ [b, b, b], x.last = false) ∧
      (transferring .idle [] 0).ports.si = [] := by decide

theorem paramsInRange_prep : ParamsInRange (prep []) := by
  unfold ParamsInRange ParamInRange
  decide +kernel

/-- A DEC with `n` groups done and the bytes `pending` kept, fed the given bytes, an A-port packet waiting. -/
def decoding (n : Nat) (pending : List Byte) (si : List StreamByte) : State := contestedTransfer (.dec n pending) si 0

/-- The last group (n = N_PARAM - 1), completed by a last byte after three kept ones. -/
theorem witness_DecFollowsTheStream_group :
    let s := decoding 3 [0, 0, 0] [⟨0x3F, true⟩]
    CPortServed s ∧ s.cfg.nParam = 4 ∧ s.ports.stream = .dec 3 [0, 0, 0] ∧ s.ports.si = [] ++ ⟨0x3F, true⟩ :: [] ∧
      ([0, 0, 0] : List Byte) ++ ([] : List StreamByte).map (·.byte) ++ [0x3F] = [0, 0, 0, 0x3F] := by
  unfold CPortServed
  decide

/-- A group of three bytes that ends in the last one; and a byte too many after N_PARAM groups. -/
theorem witness_DecFollowsTheStream_discard :
    (let s := decoding 1 [7] [⟨8, false⟩, ⟨9, true⟩]
    CPortServed s ∧ s.ports.stream = .dec 1 [7] ∧ s.ports.si = [⟨8, false⟩] ++ ⟨9, true⟩ :: [] ∧
      ([7] : List Byte).length + ([⟨8, false⟩] : List StreamByte).length < 3) ∧
    (let s := decoding 4 [] [⟨7, false⟩, ⟨9, true⟩]
    CPortServed s ∧ s.cfg.nParam ≤ 4 ∧ s.ports.stream = .dec 4 [] ∧ s.ports.si = [⟨7, false⟩] ++ ⟨9, true⟩ :: []) := by
  unfold CPortServed
  decide

/-- Three bytes of a group in two parts; and bytes without end after N_PARAM groups. -/
theorem witness_DecFollowsTheStream_parts :
    (let s := decoding 0 [7] [⟨8, false⟩, ⟨9, false⟩]
    CPortServed s ∧ s.ports.si = [⟨8, false⟩, ⟨9, false⟩] ∧ 0 < s.cfg.nParam ∧
      ([7] : List Byte).length + ([⟨8, false⟩, ⟨9, false⟩] : List StreamByte).length ≤ 3) ∧
    (let s := decoding 4 [] [⟨7, false⟩]
    CPortServed s ∧ s.cfg.nParam ≤ 4 ∧ s.ports.si = [⟨7, false⟩]) := by
  unfold CPortServed
  decide

theorem witness_CodecRoundTrip :
    small.wf = true ∧ ParamsInRange (prep []) ∧
      (let u := { start small .a [] with ports := { Ports.idle with cCmds := [encode .dec], si := image (prep []) } }
      u.cfg.ptab = (prep []).cfg.ptab ∧ u.cfg.stateEndian = (prep []).cfg.stateEndian ∧ u.ports.rst = false ∧
        u.ports.aCmds = [] ∧ u.ports.cCmds = [encode .dec] ∧ u.ports.stream = .idle ∧ u.ports.si = image (prep [])) :=
  ⟨by decide +kernel, paramsInRange_prep, by decide +kernel⟩

/-- A prepared machine of configuration SMALL meets every invariant. -/
theorem legal_prep : Legal (prep []) := by
  refine ⟨by decide +kernel, by decide +kernel, paramsInRange_prep, ?_, ?_, ?_⟩
  · unfold CsrsLegal; decide +kernel
  · unfold PreparedLegal; decide +kernel
  · unfold OscillatorsLegal; decide +kernel

theorem phasesWrapped_prep : PhasesWrapped (prep []) := by
  unfold PhasesWrapped
  decide +kernel

/-- A prepared machine with commands to take. -/
theorem witness_StepKeepsLegal : Legal (prep []) ∧ isNext (step (prep [])) = true := ⟨legal_prep, by decide +kernel⟩

theorem witness_ParametersStayInRange : small.wf = true ∧ (prep []).cfg.wf = true ∧ ParamsInRange (prep []) ∧
    isNext (step (prep [])) = true := ⟨by decide +kernel, by decide +kernel, paramsInRange_prep, by decide +kernel⟩

theorem witness_ResetIsLegal : small.wf = true := by decide +kernel

theorem witness_PhasesStayWrapped : (prep []).cfg.openPoints = .stop ∧ Legal (prep []) ∧ PhasesWrapped (prep []) ∧
    isNext (step (prep [])) = true := ⟨rfl, legal_prep, phasesWrapped_prep, by decide +kernel⟩

theorem witness_CommandFrame :
    isNext (exec (.dly 0 1 0) (prep [])) = true ∧ storeChannel (.dly 0 1 0) = some 0 ∧ destOf (.dly 0 1 0) ≠ some 1 ∧
      storeChannel (.ldi 0 1) = none ∧ isPrepare (.ldi 0 1) = false ∧ advances (.dly 0 1 0) ≠ some 1 := by decide +kernel

theorem witness_ControlRegisterFrame :
    isNext (exec (.prepare 0 1 0 31) (prep [])) = true ∧
      after (exec (.prepare 0 1 0 31) (prep [])) (fun t => (prepared t, prepareError t)) = some (false, true) ∧
      (Instr.nop).op ≠ .prepare ∧ (Instr.nop).op ≠ .csrw ∧ (Instr.nop).op ≠ .thr ∧ (Instr.nop).op ≠ .release := by
  decide +kernel

theorem witness_ControlPortIsolation :
    (start small .c []).ports.port = .c ∧ (start small .c [7]).cfg = (start small .c []).cfg ∧
      (start small .c [7]).cur = (start small .c []).cur ∧ (start small .c [7]).ports = (start small .c []).ports ∧
      (start small .c [7]).events = (start small .c []).events ∧ (start small .c [7]).d ≠ (start small .c []).d ∧
      isNext (exec (.setp 0 0) (start small .c [])) = true := by decide +kernel

/-- Each stop of 60_exceptions.md R296 is met. -/
theorem witness_StopsOnlyAtOpenPoints :
    faultOf (exec (.lnext 3 0) (setLfo 0 { freq := fltMax, phase := 0, wave := 0 } (prep []))) = some .nonfinitePhase ∧
      faultOf (exec (.pop 1 2 0 .none 0) (ramp [0, 0, 0xBF800000])) = some .delayRange ∧
      faultOf (exec (.dly 0 1 0) { prep [] with csr := { (prep []).csr with kdelay := 0x41C00000 } }) = some .delayRange ∧
      faultOf (exec (.chor 0 1 2 0) { prep [] with csr := { (prep []).csr with kdelay := 0x41C00000, kntap := 3 } }) =
        some .delayRange ∧
      refusalOf (exec (.shape 0 1) { shaper 3 0 id with cfg := { small with unspecMode := some 3 } }) = some .unspecMode ∧
      refusalOf (exec (.dist 0 1) { shaper 3 0 id with cfg := { small with unspecMode := some 3 } }) = some .unspecMode := by
  decide +kernel

/-- A delay out of range at the last of three taps alone, CUBIC with a fraction below 1. -/
theorem witness_OpenPointsStop :
    let s := { prep [] with csr := { (prep []).csr with kdelay := 0x40200000, kntap := 3, kinterp := 3 } }
    delayInRange s (chorDelay s (reg s 2) 1) (kernelInterp s) = true ∧
      delayInRange s (chorDelay s (reg s 2) 2) (kernelInterp s) = true ∧
      delayInRange s (chorDelay s (reg s 2) 3) (kernelInterp s) = false ∧ 3 ≤ s.csr.kntap.toNat ∧
      s.cfg.openPoints = .stop ∧ prepared s = true ∧ (0 : Chan).toNat < s.csr.nch.toNat := by decide +kernel

theorem witness_OpenPointsRun :
    (let s := running (setLfo 0 { freq := fltMax, phase := 0, wave := 0 } (prep []))
    s.cfg.openPoints = .run ∧ isFinite (advancedPhase s 0) = false ∧ isNext (exec (.lnext 3 0) s) = true) ∧
    (let s := running (ramp [0, 0, 0x41C00000])
    prepared s = true ∧ delayInRange s (reg s 2) .allpass = false ∧
      isNext (exec (.pop 1 2 0 .allpass 0) s) = true) := by decide +kernel

theorem witness_RunningMachineNeverStops : (running State.reset).cfg.openPoints = .run := rfl

/-! ## Reset -/

theorem test_reset : memoryWf State.reset.mem ∧ State.reset.csr.status = 0 ∧ param State.reset 1 = 0x3E4CCCCD := by
  decide +kernel

end Sys2Proof.Tests
end

section
/-! Facts about the binary32 layer (00_scope.md R8, R12 to R14): what the fields of a packed word are, what classification
and comparison say about the value, and that rounding keeps a magnitude that is representable already. -/

namespace Sys2Proof.Machine

/-! ## The fields of a packed word -/

theorem toNat_f32Pack (neg : Bool) {bits : Nat} (h : bits < 2 ^ 31) :
    (f32Pack neg bits).toNat = if neg then 2 ^ 31 + bits else bits := by
  cases neg <;> simp [f32Pack] <;> omega

theorem f32Neg_eq_decide (a : Word) : f32Neg a = decide (2 ^ 31 ≤ a.toNat) :=
  (BitVec.msb_eq_getLsbD_last a).symm.trans (BitVec.msb_eq_decide a)

theorem f32Neg_f32Pack (neg : Bool) {bits : Nat} (h : bits < 2 ^ 31) : f32Neg (f32Pack neg bits) = neg := by
  rw [f32Neg_eq_decide, toNat_f32Pack neg h]
  cases neg
  · simpa using h
  · simp

theorem f32Exp_f32Pack (neg : Bool) {bits : Nat} (h : bits < 2 ^ 31) : f32Exp (f32Pack neg bits) = bits / 2 ^ 23 := by
  rw [f32Exp, toNat_f32Pack neg h]
  split <;> omega

theorem f32Frac_f32Pack (neg : Bool) {bits : Nat} (h : bits < 2 ^ 31) :
    f32Frac (f32Pack neg bits) = bits % 2 ^ 23 := by
  rw [f32Frac, toNat_f32Pack neg h]
  split <;> omega

/-- `e · 2^23 + m` are the bits of the magnitude `m · 2^e`: a significand with its leading bit at 23 carries one into the
exponent field, and a shorter one, for which `e` is 0, is subnormal. -/
theorem f32Mag_f32Pack (neg : Bool) {e m : Nat} (he : e ≤ 253) (hm : m < 2 ^ 24) (hlead : e = 0 ∨ 2 ^ 23 ≤ m) :
    f32Mag (f32Pack neg (e * 2 ^ 23 + m)) = m * 2 ^ e := by
  have hbits : e * 2 ^ 23 + m < 2 ^ 31 := by omega
  rw [f32Mag, f32Exp_f32Pack neg hbits, f32Frac_f32Pack neg hbits]
  by_cases hsub : m < 2 ^ 23
  · obtain rfl : e = 0 := by omega
    rw [if_pos (by omega)]
    omega
  · have hexp : (e * 2 ^ 23 + m) / 2 ^ 23 = e + 1 := by omega
    have hsig : 2 ^ 23 + (e * 2 ^ 23 + m) % 2 ^ 23 = m := by omega
    rw [hexp, hsig, if_neg e.succ_ne_zero, Nat.add_sub_cancel]

/-! ## Classification and magnitude (R13, R14) -/

theorem f32Exp_lt (a : Word) : f32Exp a < 2 ^ 8 := Nat.mod_lt _ (by decide)

theorem f32Frac_lt (a : Word) : f32Frac a < 2 ^ 23 := Nat.mod_lt _ (by decide)

theorem isFinite_iff {a : Word} : isFinite a = true ↔ f32Exp a ≠ 255 := by simp [isFinite]

theorem isInf_iff {a : Word} : isInf a = true ↔ f32Exp a = 255 ∧ f32Frac a = 0 := by simp [isInf]

theorem isNaN_qNaN : isNaN qNaN = true := by decide

theorem isNaN_of_isFinite {a : Word} (h : isFinite a = true) : isNaN a = false := by
  simp [isNaN, isFinite_iff.mp h]

theorem isInf_of_isFinite {a : Word} (h : isFinite a = true) : isInf a = false := by
  simp [isInf, isFinite_iff.mp h]

theorem isNaN_of_isInf {a : Word} (h : isInf a = true) : isNaN a = false := by
  simp [isNaN, (isInf_iff.mp h).2]

theorem f32Mag_of_isInf {a : Word} (h : isInf a = true) : f32Mag a = 2 ^ 23 * 2 ^ 254 := by
  obtain ⟨hexp, hfrac⟩ := isInf_iff.mp h
  simp [f32Mag, hexp, hfrac]

theorem isZero_of_isInf {a : Word} (h : isInf a = true) : isZero a = false := by
  simp [isZero, f32Mag_of_isInf h]

/-! ## Representable magnitudes -/

/-- A magnitude some finite binary32 value has: a significand below 2^24, shifted by an exponent in range. -/
def Representable (n : Nat) : Prop := ∃ m e, m < 2 ^ 24 ∧ e ≤ 253 ∧ n = m * 2 ^ e

theorem representable_f32Mag {a : Word} (h : isFinite a = true) : Representable (f32Mag a) := by
  have hfin := isFinite_iff.mp h
  have hexp := f32Exp_lt a
  have hfrac := f32Frac_lt a
  rw [f32Mag]
  split
  · exact ⟨f32Frac a, 0, by omega, by omega, by simp⟩
  · exact ⟨2 ^ 23 + f32Frac a, f32Exp a - 1, by omega, by omega, rfl⟩

/-- Every finite magnitude is below that of an infinity. -/
theorem f32Mag_lt_of_isInf {a b : Word} (ha : isFinite a = true) (hb : isInf b = true) : f32Mag a < f32Mag b := by
  obtain ⟨m, e, hm, he, hmag⟩ := representable_f32Mag ha
  calc f32Mag a = m * 2 ^ e := hmag
    _ < 2 ^ 24 * 2 ^ e := Nat.mul_lt_mul_of_pos_right hm (Nat.two_pow_pos e)
    _ ≤ 2 ^ 24 * 2 ^ 253 := Nat.mul_le_mul_left _ (Nat.pow_le_pow_right (by decide) he)
    _ = f32Mag b := by rw [f32Mag_of_isInf hb]; norm_num

/-- A multiple of 2^e that is below 2^24 such units is representable. -/
theorem representable_of_dvd {n e : Nat} (he : e ≤ 253) (hdvd : 2 ^ e ∣ n) (hlt : n < 2 ^ 24 * 2 ^ e) :
    Representable n := by
  obtain ⟨k, rfl⟩ := hdvd
  rw [Nat.mul_comm (2 ^ 24)] at hlt
  exact ⟨k, e, Nat.lt_of_mul_lt_mul_left hlt, he, Nat.mul_comm _ _⟩

/-- Why `fmodt` never rounds: the remainder is a multiple of the smaller of the two units in the last place, and is no
larger than the operand that has this unit. -/
theorem Representable.mod {x y : Nat} (hx : Representable x) (hy : Representable y) (hpos : y ≠ 0) :
    Representable (x % y) := by
  obtain ⟨m, e, hm, he, rfl⟩ := hx
  obtain ⟨k, f, hk, hf, rfl⟩ := hy
  rcases Nat.le_total e f with hef | hfe
  · refine representable_of_dvd he ?_ ?_
    · exact (Nat.dvd_mod_iff ((Nat.pow_dvd_pow 2 hef).mul_left k)).mpr (Nat.dvd_mul_left _ m)
    · exact (Nat.mod_le _ _).trans_lt (Nat.mul_lt_mul_of_pos_right hm (Nat.two_pow_pos e))
  · refine representable_of_dvd hf ?_ ?_
    · exact (Nat.dvd_mod_iff (Nat.dvd_mul_left _ k)).mpr ((Nat.pow_dvd_pow 2 hfe).mul_left m)
    · exact (Nat.mod_lt _ (Nat.pos_of_ne_zero hpos)).trans (Nat.mul_lt_mul_of_pos_right hk (Nat.two_pow_pos f))

/-- The exponent `roundMag` uses cuts a representable magnitude without a rest: the significand has at most 24 bits, and
all of them where the exponent is not 0. -/
theorem Representable.eq_mul_ulp {n : Nat} (h : Representable n) :
    ∃ m, n = m * 2 ^ (n.log2 - 23) ∧ m < 2 ^ 24 ∧ (n.log2 - 23 = 0 ∨ 2 ^ 23 ≤ m) ∧ n.log2 - 23 ≤ 253 := by
  rcases eq_or_ne n 0 with rfl | hne
  · exact ⟨0, by simp⟩
  obtain ⟨m, e, hm, he, hn⟩ := h
  have hlog : n.log2 < 24 + e := by
    rw [Nat.log2_lt hne, hn, Nat.pow_add]
    exact Nat.mul_lt_mul_of_pos_right hm (Nat.two_pow_pos e)
  obtain ⟨k, hk⟩ : 2 ^ (n.log2 - 23) ∣ n := hn ▸ (Nat.pow_dvd_pow 2 (by omega)).mul_left m
  have hupper : 2 ^ (n.log2 - 23) * k < 2 ^ (n.log2 - 23) * 2 ^ 24 := by
    rw [← hk, ← Nat.pow_add]
    exact Nat.lt_log2_self.trans_le (Nat.pow_le_pow_right (by decide) (by omega))
  have hlead : n.log2 - 23 = 0 ∨ 2 ^ (n.log2 - 23) * 2 ^ 23 ≤ 2 ^ (n.log2 - 23) * k := by
    refine (Nat.eq_zero_or_pos _).imp_right fun hpos => ?_
    rw [← hk, ← Nat.pow_add, show n.log2 - 23 + 23 = n.log2 by omega]
    exact Nat.log2_self_le hne
  exact ⟨k, hk.trans (Nat.mul_comm _ _), Nat.lt_of_mul_lt_mul_left hupper,
    hlead.imp_right (Nat.le_of_mul_le_mul_left · (Nat.two_pow_pos _)), by omega⟩

/-! ## Rounding keeps a representable magnitude (R12) -/

theorem divNearestEven_mul (m : Nat) {d : Nat} (hd : 0 < d) : divNearestEven (m * d) d = m := by
  rw [divNearestEven, Nat.mul_mod_left, if_pos (by omega), Nat.mul_div_cancel m hd]

/-- A representable magnitude is a significand and an exponent whose bits `roundMag` gives as they are. -/
theorem Representable.roundMag_eq {n : Nat} (h : Representable n) :
    ∃ m e, n = m * 2 ^ e ∧ m < 2 ^ 24 ∧ (e = 0 ∨ 2 ^ 23 ≤ m) ∧ e ≤ 253 ∧ roundMag n 1 = e * 2 ^ 23 + m := by
  obtain ⟨m, hn, hm, hlead, he⟩ := h.eq_mul_ulp
  refine ⟨m, n.log2 - 23, hn, hm, hlead, he, ?_⟩
  have hquot : divNearestEven n (2 ^ (n.log2 - 23)) = m :=
    calc divNearestEven n (2 ^ (n.log2 - 23))
      _ = divNearestEven (m * 2 ^ (n.log2 - 23)) (2 ^ (n.log2 - 23)) := congrArg (divNearestEven · _) hn
      _ = m := divNearestEven_mul m (Nat.two_pow_pos _)
  simp only [roundMag, Nat.div_one, Nat.one_mul, hquot]
  omega

/-- Rounding a representable magnitude is exact, finite, and gives the sign asked for. -/
theorem Representable.fround_exact {n : Nat} (h : Representable n) (neg : Bool) :
    f32Mag (fround neg n 1) = n ∧ f32Neg (fround neg n 1) = neg ∧ isFinite (fround neg n 1) = true := by
  obtain ⟨m, e, hn, hm, hlead, he, hround⟩ := h.roundMag_eq
  have hbits : e * 2 ^ 23 + m < 2 ^ 31 := by omega
  rw [fround, hround, isFinite_iff, f32Exp_f32Pack neg hbits]
  exact ⟨(f32Mag_f32Pack neg he hm hlead).trans hn.symm, f32Neg_f32Pack neg hbits, by omega⟩

/-! ## Signed values -/

theorem f32Val_of_neg {a : Word} (h : f32Neg a = true) : f32Val a = -(f32Mag a : Int) := by simp [f32Val, h]

theorem f32Val_of_nonneg {a : Word} (h : f32Neg a = false) : f32Val a = f32Mag a := by simp [f32Val, h]

theorem natAbs_f32Val (a : Word) : (f32Val a).natAbs = f32Mag a := by
  cases h : f32Neg a
  · simp [f32Val_of_nonneg h]
  · simp [f32Val_of_neg h]

/-- The truncated remainder of two values has the sign of the first and the remainder of the magnitudes. -/
theorem f32Val_tmod (a b : Word) :
    (f32Val a).tmod (f32Val b) =
      if f32Neg a then -((f32Mag a % f32Mag b : Nat) : Int) else (f32Mag a % f32Mag b : Nat) := by
  cases ha : f32Neg a <;> cases hb : f32Neg b <;>
    simp [f32Val, ha, hb, Int.tmod_eq_emod_of_nonneg]

/-! ## The remainder (R16) -/

theorem fmodt_of_finite {a b : Word} (ha : isFinite a = true) (hb : isFinite b = true) (hne : f32Mag b ≠ 0) :
    fmodt a b = fround (f32Neg a) (f32Mag a % f32Mag b) 1 := by
  simp [fmodt, isNaN_of_isFinite ha, isNaN_of_isFinite hb, isInf_of_isFinite ha, isInf_of_isFinite hb, isZero, hne]

theorem fmodt_of_isInf_or_isZero {a b : Word} (h : isInf a = true ∨ isZero b = true) : fmodt a b = qNaN := by
  simp [fmodt, h]

theorem fmodt_of_isInf_right {a b : Word} (ha : isFinite a = true) (hb : isInf b = true) : fmodt a b = a := by
  simp [fmodt, isNaN_of_isFinite ha, isInf_of_isFinite ha, isNaN_of_isInf hb, isZero_of_isInf hb, hb]

/-! ## Comparisons (R14) and the clamp (R19) -/

theorem flt_iff {a b : Word} : flt a b = true ↔ isNaN a = false ∧ isNaN b = false ∧ f32Val a < f32Val b := by
  simp [flt, and_assoc]

theorem fle_iff {a b : Word} : fle a b = true ↔ isNaN a = false ∧ isNaN b = false ∧ f32Val a ≤ f32Val b := by
  simp [fle, and_assoc]

theorem fle_of_flt {a b : Word} (h : flt a b = true) : fle a b = true := by
  obtain ⟨ha, hb, hlt⟩ := flt_iff.mp h
  exact fle_iff.mpr ⟨ha, hb, hlt.le⟩

theorem fle_refl {a : Word} (h : isNaN a = false) : fle a a = true := fle_iff.mpr ⟨h, h, le_rfl⟩

/-- Two numbers are comparable. -/
theorem flt_eq_false_iff {a b : Word} (ha : isNaN a = false) (hb : isNaN b = false) :
    flt a b = false ↔ fle b a = true := by
  simp [flt, fle, ha, hb]

theorem not_flt_of_fle {a b : Word} (h : fle a b = true) : flt b a = false := by
  obtain ⟨ha, hb, -⟩ := fle_iff.mp h
  exact (flt_eq_false_iff hb ha).mpr h

theorem flt_of_fle_of_flt {a b c : Word} (hab : fle a b = true) (hbc : flt b c = true) : flt a c = true := by
  obtain ⟨ha, -, hle⟩ := fle_iff.mp hab
  obtain ⟨-, hc, hlt⟩ := flt_iff.mp hbc
  exact flt_iff.mpr ⟨ha, hc, hle.trans_lt hlt⟩

theorem neg_infinity_flt {v w : Word} (hv : isInf v = true) (hneg : f32Neg v = true) (hw : isFinite w = true) :
    flt v w = true := by
  have hmag := f32Mag_lt_of_isInf hw hv
  have habs := natAbs_f32Val w
  have hval := f32Val_of_neg hneg
  exact flt_iff.mpr ⟨isNaN_of_isInf hv, isNaN_of_isFinite hw, by omega⟩

theorem flt_pos_infinity {v w : Word} (hv : isInf v = true) (hpos : f32Neg v = false) (hw : isFinite w = true) :
    flt w v = true := by
  have hmag := f32Mag_lt_of_isInf hw hv
  have habs := natAbs_f32Val w
  have hval := f32Val_of_nonneg hpos
  exact flt_iff.mpr ⟨isNaN_of_isFinite hw, isNaN_of_isInf hv, by omega⟩

theorem clampf_of_below {v lo hi : Word} (h : flt v lo = true) : clampf v lo hi = lo := by simp [clampf, h]

/-- Above a range that is not empty v is not below it, so the first comparison of `clampf` lets it pass. -/
theorem clampf_of_above {v lo hi : Word} (hle : fle lo hi = true) (h : flt hi v = true) : clampf v lo hi = hi := by
  have hlow : flt v lo = false := not_flt_of_fle (fle_of_flt (flt_of_fle_of_flt hle h))
  simp [clampf, hlow, h]

theorem clampf_of_inside {v lo hi : Word} (hlo : flt v lo = false) (hhi : flt hi v = false) : clampf v lo hi = v := by
  simp [clampf, hlo, hhi]

/-- Wherever v lies, the clamped value lies between the bounds. -/
theorem clampf_in_range {v lo hi : Word} (hle : fle lo hi = true) (hv : isNaN v = false) :
    fle lo (clampf v lo hi) = true ∧ fle (clampf v lo hi) hi = true := by
  obtain ⟨hlo, hhi, -⟩ := fle_iff.mp hle
  cases hbelow : flt v lo with
  | true => rw [clampf_of_below hbelow]; exact ⟨fle_refl hlo, hle⟩
  | false =>
    cases habove : flt hi v with
    | true => rw [clampf_of_above hle habove]; exact ⟨hle, fle_refl hhi⟩
    | false =>
      rw [clampf_of_inside hbelow habove]
      exact ⟨(flt_eq_false_iff hv hlo).mp hbelow, (flt_eq_false_iff hhi hv).mp habove⟩

end Sys2Proof.Machine

/-! ## The statements about the remainder and the clamp -/

section
open Sys2Proof.Machine

/-- Settles O24: the remainder of two representable magnitudes is representable, so the one rounding in `fmodt` is exact. -/
theorem fmodtIsExact : Obligations.FmodtIsExact := by
  refine ⟨fun a b ha hb hne => ?_, fun a b h => ?_, fun a b => fmodt_of_isInf_right⟩
  · have hrep := (representable_f32Mag ha).mod (representable_f32Mag hb) hne
    obtain ⟨hmag, hneg, hfin⟩ := hrep.fround_exact (f32Neg a)
    rw [fmodt_of_finite ha hb hne, ← Int.tmod_def, f32Val_tmod, f32Val, hneg, hmag]
    exact ⟨rfl, rfl, Nat.mod_lt _ (Nat.pos_of_ne_zero hne), hfin⟩
  · rw [fmodt_of_isInf_or_isZero h, isNaN_qNaN]

/-- Settles O25, by where v lies: below the range, above it or inside; an infinity lies outside a finite bound. -/
theorem clampfClamps : Obligations.ClampfClamps := fun _ _ _ hle hv =>
  ⟨clampf_of_below, clampf_of_above hle, clampf_of_inside,
    fun hinf hneg hlo => clampf_of_below (neg_infinity_flt hinf hneg hlo),
    fun hinf hpos hhi => clampf_of_above hle (flt_pos_infinity hinf hpos hhi),
    clampf_in_range hle hv⟩

end
end

section
/-! The CSR map by page and offset: the two halves of the address (10_state.md R35). -/

namespace Sys2Proof.Machine

theorem toNat_highNibble (a : CsrAddr) : (a.extractLsb' 4 4 : BitVec 4).toNat = a.toNat / 16 := by
  rw [BitVec.extractLsb'_toNat, Nat.shiftRight_eq_div_pow]
  omega

theorem toNat_lowNibble (a : CsrAddr) : (a.extractLsb' 0 4 : Chan).toNat = a.toNat % 16 := by
  rw [BitVec.extractLsb'_toNat, Nat.shiftRight_zero]

/-- The addresses of the views: offset `l` on a page of 16. -/
theorem toNat_viewAddr {page : Nat} (hpage : page ≤ 0xF0) (l : Chan) :
    (BitVec.ofNat 8 (page + l.toNat)).toNat = page + l.toNat := by
  rw [BitVec.toNat_ofNat]
  omega

theorem lowNibble_viewAddr {page : Nat} (hpage : page ≤ 0xF0) (hdvd : 16 ∣ page) (l : Chan) :
    (BitVec.ofNat 8 (page + l.toNat)).extractLsb' 0 4 = l := by
  apply BitVec.eq_of_toNat_eq
  rw [toNat_lowNibble, toNat_viewAddr hpage]
  omega

/-- An address inside a page of views shows the register of its channel. -/
theorem csrAt_view {cfg : Config} {l : Chan} (hl : l.toNat < cfg.nCh) :
    csrAt cfg (BitVec.ofNat 8 (0x40 + l.toNat)) = some (.lfreq l) ∧
      csrAt cfg (BitVec.ofNat 8 (0x50 + l.toNat)) = some (.lphase l) ∧
      csrAt cfg (BitVec.ofNat 8 (0x60 + l.toNat)) = some (.lwave l) ∧
      csrAt cfg (BitVec.ofNat 8 (0x70 + l.toNat)) = some (.widx l) := by
  have hhigh : ∀ page ≤ 0xF0, 16 ∣ page → (page + l.toNat) / 16 = page / 16 := by omega
  simp only [csrAt, toNat_highNibble, toNat_viewAddr, lowNibble_viewAddr, Nat.reduceLeDiff, Nat.reduceDvd, hhigh,
    Nat.reduceDiv, hl, if_true, and_self]

/-- The reserved addresses, page by page: those beyond the last register of a page, and every page without registers. -/
theorem csrAt_eq_none_iff {cfg : Config} (hch : cfg.nCh ≤ 15) (a : CsrAddr) :
    csrAt cfg a = none ↔
      ¬ (a.toNat ≤ 0x06 ∨ (0x10 ≤ a.toNat ∧ a.toNat ≤ 0x18) ∨ (0x20 ≤ a.toNat ∧ a.toNat ≤ 0x26) ∨
        (0x40 ≤ a.toNat ∧ a.toNat < 0x40 + cfg.nCh) ∨ (0x50 ≤ a.toNat ∧ a.toNat < 0x50 + cfg.nCh) ∨
        (0x60 ≤ a.toNat ∧ a.toNat < 0x60 + cfg.nCh) ∨ (0x70 ≤ a.toNat ∧ a.toNat < 0x70 + cfg.nCh)) := by
  simp only [csrAt, toNat_highNibble, toNat_lowNibble]
  split
  · split <;> simp only [reduceCtorEq, false_iff, true_iff, imp_false] at * <;> omega
  · split <;> simp only [reduceCtorEq, false_iff, true_iff, imp_false] at * <;> omega
  · split <;> simp only [reduceCtorEq, false_iff, true_iff, imp_false] at * <;> omega
  · simp only [ite_eq_right_iff, reduceCtorEq, imp_false]; omega
  · simp only [ite_eq_right_iff, reduceCtorEq, imp_false]; omega
  · simp only [ite_eq_right_iff, reduceCtorEq, imp_false]; omega
  · simp only [ite_eq_right_iff, reduceCtorEq, imp_false]; omega
  · simp only [true_iff, imp_false] at *; omega

theorem csrValue_views_reset (cfg : Config) (l : Chan) :
    csrValue (State.resetWith cfg) (.lfreq l) = 0 ∧ csrValue (State.resetWith cfg) (.lphase l) = 0 ∧
      csrValue (State.resetWith cfg) (.lwave l) = 0 ∧ csrValue (State.resetWith cfg) (.widx l) = 0 := by
  simp [csrValue, lfo, dline, State.resetWith, Lfo.reset, DelayLine.reset]

end Sys2Proof.Machine
end

section
/-! What every step does to the settings of the machine: its configuration, the parameter values with their NOTIFY
history, and KBITS. One inversion lemma, `step_settings`, says all of it. -/

namespace Sys2Proof.Machine

/-! ## The settings of a state -/

/-- The configuration, the parameter values, the history of their writes, and the bit count of mode 5. -/
structure Settings where
  cfg : Config
  cur : Vector Word 32
  notify : List NotifyEvent
  kbits : Word

/-- The settings a state has. -/
def settings (s : State) : Settings :=
  { cfg := s.cfg, cur := s.cur, notify := s.events.notify, kbits := s.csr.kbits }

/-- The settings after the setter stored `w` in parameter `p`. -/
def Settings.store (a : Settings) (p : ParamIdx) (w : Word) : Settings :=
  { a with cur := a.cur.set p.toNat w p.isLt, notify := a.notify ++ [{ p := p, v := w }] }

/-- What a move of a port can do to the settings: nothing, one write of the setter (41_parameter_store.md R165), or one
write of KBITS (10_state.md R41). -/
inductive SettingsMove (a : Settings) : Settings → Prop where
  | kept : SettingsMove a a
  | stored (p : ParamIdx) (v : Word) (hv : isNaN v = false) :
      SettingsMove a (a.store p (clampf v (a.cfg.param p).min (a.cfg.param p).max))
  | kbitsWritten (v : Word) : SettingsMove a { a with kbits := clampu v 1 32 }

theorem SettingsMove.of_eq {a b : Settings} (h : b = a) : SettingsMove a b := h ▸ .kept

/-! ## Operations that keep the settings -/

theorem settings_suppress (s : State) : settings (suppress s) = settings s := rfl

@[simp] theorem settings_writeResult (rd : Reg) (v : Word) (s : State) :
    settings (writeResult rd v s) = settings s := rfl

@[simp] theorem settings_advance (c : Chan) (s : State) : settings (advance c s) = settings s := rfl

@[simp] theorem settings_storeSample (c : Chan) (v : Word) (s : State) :
    settings (storeSample c v s) = settings s := rfl

theorem settings_paramResult (rd : Reg) (v : Word) (s : State) : settings (paramResult rd v s) = settings s := by
  unfold paramResult
  split <;> rfl

theorem settings_csrrEffect (rd : Reg) (a : CsrAddr) (s : State) : settings (csrrEffect rd a s) = settings s := by
  unfold csrrEffect
  split <;> rfl

theorem settings_prepareEffect (sr blk : Word) (nch : Chan) (pd : ParamIdx) (s : State) :
    settings (prepareEffect sr blk nch pd s) = settings s := by
  unfold prepareEffect
  split <;> rfl

theorem settings_encContinue (rest : List StreamByte) (s : State) : settings (encContinue rest s) = settings s := by
  unfold encContinue
  split <;> rfl

theorem settings_grant (p : Port) (s : State) : settings (grant p s) = settings s := by
  unfold grant
  split <;> rfl

theorem settings_tapRead {c : Chan} {d : Word} {mode : Interp} {t : Slot} {s u : State} {v : Word}
    (h : tapRead c d mode t s = .ok (v, u)) : settings u = settings s := by
  rw [tapRead_frame h]
  rfl

theorem settings_popEffect {c : Chan} {d : Word} {mode : Interp} {slot : Slot} {rd : Reg} {s t : State}
    (h : popEffect rd (tapRead c d mode slot s) = .next t) : settings t = settings s := by
  unfold popEffect at h
  split at h
  next => cases h
  next hr => cases h; exact (settings_writeResult ..).trans (settings_tapRead hr)

theorem settings_dlyEffect {rd : Reg} {c : Chan} {dry : Word} {s t : State} (h : dlyEffect rd c dry s = .next t) :
    settings t = settings s := by
  unfold dlyEffect at h
  split at h
  next => cases h
  next hr => cases h; simpa [dlyFinish] using settings_tapRead hr

theorem settings_chorSum {c : Chan} {l v : Word} {s u : State} (h : chorSum c l s = .ok (v, u)) :
    settings u = settings s := by
  unfold chorSum chorTap at h
  split at h
  next => cases h
  next h1 =>
    split at h
    next => cases h; exact settings_tapRead h1
    next =>
      split at h
      next => cases h
      next h2 =>
        have h21 := (settings_tapRead h2).trans (settings_tapRead h1)
        split at h
        next => cases h; exact h21
        next =>
          split at h
          next => cases h
          next h3 => cases h; exact (settings_tapRead h3).trans h21

theorem settings_chorEffect {rd : Reg} {c : Chan} {dry l : Word} {s t : State}
    (h : chorEffect rd c dry l s = .next t) : settings t = settings s := by
  unfold chorEffect at h
  split at h
  next => cases h
  next hsum => cases h; simpa [chorFinish] using settings_chorSum hsum

theorem settings_shapeEffect {rd : Reg} {x : Word} {s t : State} (h : shapeEffect rd x s = .next t) :
    settings t = settings s := by
  unfold shapeEffect at h
  split at h
  next => cases h
  next => cases h; rfl

/-! ## Operations that write a setting -/

theorem setpEffect_settingsMove (p : ParamIdx) (v : Word) (s : State) :
    SettingsMove (settings s) (settings (setpEffect p v s)) := by
  cases hv : isNaN v with
  | true => rw [setpEffect_of_nan hv]; exact .kept
  | false => rw [setpEffect_of_number hv]; exact .stored p v hv

theorem applyGroup_settingsMove (g : Option (ParamIdx × Word)) (s : State) :
    SettingsMove (settings s) (settings (applyGroup g s)) := by
  cases g with
  | none => exact .kept
  | some q => exact setpEffect_settingsMove q.1 q.2 s

theorem decContinue_settingsMove (n : Nat) (pending : List Byte) (s : State) :
    SettingsMove (settings s) (settings (decContinue n pending s)) := by
  have hgroup := applyGroup_settingsMove (decScan s.cfg n pending s.ports.si).group
    (setSi (decScan s.cfg n pending s.ports.si).rest s)
  dsimp only [decContinue]
  split <;> exact hgroup

theorem csrWrite_settingsMove (r : Csr) (v : Word) (s : State) :
    SettingsMove (settings s) (settings (csrWrite r v s)) := by
  cases r with
  | kbits => exact .kbitsWritten v
  | _ => exact .kept

theorem csrwEffect_settingsMove (a : CsrAddr) (v : Word) (s : State) :
    SettingsMove (settings s) (settings (csrwEffect a v s)) := by
  unfold csrwEffect
  split
  next r _ => exact csrWrite_settingsMove r v s
  next => exact .kept

/-! ## Every command and every step -/

/-- A command moves the settings as its effect does: suppression keeps them. -/
theorem command_settingsMove {i : Instr} {s t : State} {e : Host.Outcome State Fault Refusal}
    (h : command i s e = .next t) (he : e = .next t → SettingsMove (settings s) (settings t)) :
    SettingsMove (settings s) (settings t) := by
  obtain ⟨-, rfl⟩ | ⟨-, hnext⟩ := command_next h
  · exact .of_eq (settings_suppress s)
  · exact he hnext

/-- `command_settingsMove` for an effect that always answers a next state. -/
theorem command_next_settingsMove {i : Instr} {s t u : State} (h : command i s (.next u) = .next t)
    (hu : SettingsMove (settings s) (settings u)) : SettingsMove (settings s) (settings t) :=
  command_settingsMove h fun e => Host.Outcome.next.inj e ▸ hu

/-- All a command can do to the settings: only SETP, DEC and CSRW write one. -/
theorem exec_settingsMove {i : Instr} {s t : State} (h : exec i s = .next t) :
    SettingsMove (settings s) (settings t) := by
  cases i with
  | setp p imm => exact command_next_settingsMove h (setpEffect_settingsMove p imm s)
  | dec => exact command_next_settingsMove h (decContinue_settingsMove 0 [] s)
  | csrw a ra => exact command_next_settingsMove h (csrwEffect_settingsMove a (reg s ra) s)
  | thr b ra => exact command_next_settingsMove h (csrWrite_settingsMove (thresholdCsr b) _ s)
  | prepare ra rb nch pd => exact command_next_settingsMove h (.of_eq (settings_prepareEffect _ _ nch pd s))
  | csrr rd a => exact command_next_settingsMove h (.of_eq (settings_csrrEffect rd a s))
  | getp rd p => exact command_next_settingsMove h (.of_eq (settings_paramResult rd _ s))
  | pmin rd p => exact command_next_settingsMove h (.of_eq (settings_paramResult rd _ s))
  | pmax rd p => exact command_next_settingsMove h (.of_eq (settings_paramResult rd _ s))
  | pdef rd p => exact command_next_settingsMove h (.of_eq (settings_paramResult rd _ s))
  | enc => exact command_next_settingsMove h (.of_eq (settings_encContinue _ s))
  | pop rd ra c interp tap => exact command_settingsMove h fun e => .of_eq (settings_popEffect e)
  | dly rd ra c => exact command_settingsMove h fun e => .of_eq (settings_dlyEffect e)
  | chor rd ra rb c => exact command_settingsMove h fun e => .of_eq (settings_chorEffect e)
  | shape rd ra => exact command_settingsMove h fun e => .of_eq (settings_shapeEffect e)
  | dist rd ra => exact command_settingsMove h fun e => .of_eq (settings_shapeEffect e)
  | lnext rd l =>
    refine command_settingsMove h fun e => ?_
    split at e
    next => cases e
    next => cases e; exact .kept
  | _ => exact command_next_settingsMove h .kept

/-- An action of a step starts from the settings of `s`, and is a reset only while `rst` is high. -/
def ActionStartsFrom (s : State) : Action → Prop
  | .reset => s.ports.rst = true
  | .idle => True
  | .command _ u | .encGoesOn _ u | .decGoesOn _ _ u => settings u = settings s

theorem takeA_startsFrom (s : State) : ActionStartsFrom s (takeA s) := by
  unfold takeA
  split
  · trivial
  · rfl

theorem takeC_startsFrom (s : State) : ActionStartsFrom s (takeC s) := by
  unfold takeC
  split
  · rfl
  · rfl
  · split
    · trivial
    · rfl

theorem grant_rst (p : Port) (s : State) : (grant p s).ports.rst = s.ports.rst := by
  unfold grant
  split <;> rfl

theorem ActionStartsFrom.of_grant {p : Port} {s : State} {act : Action} (h : ActionStartsFrom (grant p s) act) :
    ActionStartsFrom s act := by
  cases act with
  | reset => exact (grant_rst p s).symm.trans h
  | idle => trivial
  | command _ u => exact h.trans (settings_grant p s)
  | encGoesOn _ u => exact h.trans (settings_grant p s)
  | decGoesOn _ _ u => exact h.trans (settings_grant p s)

theorem nextAction_startsFrom (s : State) : ActionStartsFrom s (nextAction s) := by
  unfold nextAction
  split
  · assumption
  · split
    · trivial
    · exact (takeA_startsFrom _).of_grant
    · exact (takeC_startsFrom _).of_grant

/-- All a step can do to the settings: the reset input sets them, any other step moves them. -/
theorem step_settings {s t : State} (h : step s = .next t) :
    (s.ports.rst = true ∧ t = takeReset s) ∨ SettingsMove (settings s) (settings t) := by
  have hstart := nextAction_startsFrom s
  unfold step at h
  generalize nextAction s = act at h hstart
  cases act with
  | reset => exact .inl ⟨hstart, (Host.Outcome.next.inj h).symm⟩
  | idle => cases h; exact .inr .kept
  | command pkt u =>
    rw [← show settings u = settings s from hstart]
    dsimp only at h
    split at h
    next => exact .inr (exec_settingsMove h)
    next => cases h; exact .inr .kept
  | encGoesOn rest u =>
    cases h
    exact .inr (.of_eq ((settings_encContinue rest u).trans hstart))
  | decGoesOn n pending u =>
    cases h
    rw [← show settings u = settings s from hstart]
    exact .inr (decContinue_settingsMove n pending u)

theorem settings_takeReset (s : State) : settings (takeReset s) = settings (State.resetWith s.cfg) := rfl

end Sys2Proof.Machine
end

section
/-! The invariants of the parameter store (10_state.md R51) and of KBITS (R41), derived from `step_settings`. -/

namespace Sys2Proof.Machine

/-! ## The parameter ranges (10_state.md R51) -/

theorem fle_trans {a b c : Word} (hab : fle a b = true) (hbc : fle b c = true) : fle a c = true := by
  obtain ⟨ha, -, hle⟩ := fle_iff.mp hab
  obtain ⟨-, hc, hle'⟩ := fle_iff.mp hbc
  exact fle_iff.mpr ⟨ha, hc, hle.trans hle'⟩

/-- The declaration of a parameter that exists is one of the table. -/
theorem param_mem_ptab {cfg : Config} {p : ParamIdx} (hp : paramExists cfg p = true) : cfg.param p ∈ cfg.ptab := by
  have hlt : p.toNat < cfg.ptab.length := of_decide_eq_true hp
  rw [Config.param, List.getD_eq_getElem _ _ hlt]
  exact List.getElem_mem hlt

theorem ptab_wf_of_wf {cfg : Config} (hwf : cfg.wf = true) : cfg.ptab.all ParamDecl.wf = true := by
  simp only [Config.wf, Bool.and_eq_true] at hwf
  simp only [hwf]

/-- In a well-formed configuration the default of a declared parameter lies within its range. -/
theorem param_wf {cfg : Config} {p : ParamIdx} (hwf : cfg.wf = true) (hp : paramExists cfg p = true) :
    fle (cfg.param p).min (cfg.param p).dflt = true ∧ fle (cfg.param p).dflt (cfg.param p).max = true := by
  have hdecl := List.all_eq_true.mp (ptab_wf_of_wf hwf) _ (param_mem_ptab hp)
  simp only [ParamDecl.wf, Bool.and_eq_true] at hdecl
  obtain ⟨⟨-, hmin⟩, hmax⟩ := hdecl
  exact ⟨hmin, hmax⟩

/-- The bounds alone put a parameter in range: a NaN compares with nothing. -/
theorem paramInRange_of_fle {s : State} {p : ParamIdx} (hmin : fle (paramMin s p) (param s p) = true)
    (hmax : fle (param s p) (paramMax s p) = true) : ParamInRange s p :=
  ⟨(fle_iff.mp hmin).2.1, hmin, hmax⟩

theorem param_resetWith (cfg : Config) (p : ParamIdx) : param (State.resetWith cfg) p = (cfg.param p).dflt := by
  simp [param, State.resetWith]

theorem paramsInRange_resetWith {cfg : Config} (hwf : cfg.wf = true) : ParamsInRange (State.resetWith cfg) := by
  intro p hp
  obtain ⟨hmin, hmax⟩ := param_wf hwf hp
  rw [← param_resetWith cfg p] at hmin hmax
  exact paramInRange_of_fle hmin hmax

/-- The parameter values are a function of the settings. -/
def Settings.param (a : Settings) (p : ParamIdx) : Word := a.cur[p.toNat]'p.isLt

theorem settings_param (s : State) (p : ParamIdx) : (settings s).param p = Machine.param s p := rfl

@[simp] theorem Settings.store_param_same (a : Settings) (p : ParamIdx) (w : Word) : (a.store p w).param p = w := by
  simp [Settings.param, Settings.store]

theorem Settings.store_param_other (a : Settings) {p q : ParamIdx} (h : q ≠ p) (w : Word) :
    (a.store p w).param q = a.param q := by
  have hne : p.toNat ≠ q.toNat := fun e => h (BitVec.eq_of_toNat_eq e.symm)
  simp [Settings.param, Settings.store, hne]

theorem SettingsMove.cfg_eq {a b : Settings} (h : SettingsMove a b) : b.cfg = a.cfg := by
  cases h <;> rfl

/-- A parameter keeps its word, or holds the clamped word of the one write the move has notified. -/
theorem SettingsMove.param_cases {a b : Settings} (h : SettingsMove a b) (p : ParamIdx) :
    b.param p = a.param p ∨
      ∃ v, isNaN v = false ∧ b.param p = clampf v (a.cfg.param p).min (a.cfg.param p).max ∧
        b.notify = a.notify ++ [{ p := p, v := b.param p }] := by
  cases h with
  | kept => exact .inl rfl
  | kbitsWritten v => exact .inl rfl
  | stored q v hv =>
    by_cases hq : p = q
    · subst hq
      rw [Settings.store_param_same]
      exact .inr ⟨v, hv, rfl, rfl⟩
    · exact .inl (a.store_param_other hq _)

/-- `SettingsMove.param_cases` for two states. -/
theorem param_of_settingsMove {s t : State} (h : SettingsMove (settings s) (settings t)) (p : ParamIdx) :
    param t p = param s p ∨
      ∃ v, isNaN v = false ∧ param t p = clamped s p v ∧
        t.events.notify = s.events.notify ++ [{ p := p, v := param t p }] :=
  h.param_cases p

theorem paramsInRange_of_settingsMove {s t : State} (hwf : s.cfg.wf = true) (hs : ParamsInRange s)
    (h : SettingsMove (settings s) (settings t)) : ParamsInRange t := by
  have hcfg : t.cfg = s.cfg := h.cfg_eq
  intro p hp
  rw [hcfg] at hp
  have hrange : fle (paramMin s p) (param t p) = true ∧ fle (param t p) (paramMax s p) = true := by
    obtain hkept | ⟨v, hv, hstored, -⟩ := param_of_settingsMove h p
    · obtain ⟨-, hmin, hmax⟩ := hs p hp
      rw [hkept]
      exact ⟨hmin, hmax⟩
    · obtain ⟨hmin, hmax⟩ := param_wf hwf hp
      rw [hstored]
      exact clampf_in_range (fle_trans hmin hmax) hv
  apply paramInRange_of_fle
  · rw [paramMin, hcfg]; exact hrange.1
  · rw [paramMax, hcfg]; exact hrange.2

/-- The parameter ranges hold after reset, and a write of the setter is clamped into them. -/
theorem step_keeps_paramsInRange {s t : State} (hwf : s.cfg.wf = true) (hs : ParamsInRange s)
    (h : step s = .next t) : ParamsInRange t := by
  obtain ⟨-, rfl⟩ | hmove := step_settings h
  · exact paramsInRange_resetWith hwf
  · exact paramsInRange_of_settingsMove hwf hs hmove

/-- GETP into register 0 is legal on both ports, and answers the whole word. -/
theorem exec_getp_zero {s : State} {p : ParamIdx} (hp : p.toNat < s.cfg.nParam) :
    exec (.getp 0 p) s = .next (paramResult 0 (param s p) s) := by
  have hport : portAccepts (.getp 0 p) s.ports.port = true := by cases s.ports.port <;> rfl
  have hlegal : illegality (.getp 0 p) s = none :=
    illegality_eq_none.mpr ⟨hport, decide_eq_true hp, rfl, nofun⟩
  exact command_of_legal hlegal _

theorem lastResponse_respond (v : Word) (s : State) :
    lastResponse (respond v s) = some { port := s.ports.port, word := v } := by
  simp [lastResponse]

theorem lastResponse_paramResult (rd : Reg) (v : Word) (s : State) :
    lastResponse (paramResult rd v s) = some { port := s.ports.port, word := v } := by
  unfold paramResult
  split <;> exact lastResponse_respond v _

/-! ## KBITS (10_state.md R41) -/

theorem toNat_clampu {v : Word} {lo hi : Nat} (hlo : lo < 2 ^ 32) (hhi : hi < 2 ^ 32) :
    (clampu v lo hi).toNat = if v.toNat < lo then lo else if hi < v.toNat then hi else v.toNat := by
  unfold clampu
  split
  · exact Nat.mod_eq_of_lt hlo
  · split
    · exact Nat.mod_eq_of_lt hhi
    · rfl

theorem clampu_in_range {v : Word} {lo hi : Nat} (hle : lo ≤ hi) (hhi : hi < 2 ^ 32) :
    lo ≤ (clampu v lo hi).toNat ∧ (clampu v lo hi).toNat ≤ hi := by
  rw [toNat_clampu (hle.trans_lt hhi) hhi]
  split_ifs <;> omega

theorem kbits_of_settingsMove {s t : State} (h : SettingsMove (settings s) (settings t)) :
    t.csr.kbits = s.csr.kbits ∨ ∃ v, t.csr.kbits = clampu v 1 32 := by
  suffices ∀ {a b : Settings}, SettingsMove a b → b.kbits = a.kbits ∨ ∃ v, b.kbits = clampu v 1 32 from this h
  intro a b hab
  cases hab with
  | kept => exact .inl rfl
  | stored p v hv => exact .inl rfl
  | kbitsWritten v => exact .inr ⟨v, rfl⟩

/-- KBITS stays within 1 to 32: it is reset to 32, kept, or written clamped. -/
theorem step_keeps_kbits_range {s t : State} (h : step s = .next t) (h1 : 1 ≤ s.csr.kbits.toNat)
    (h32 : s.csr.kbits.toNat ≤ 32) : 1 ≤ t.csr.kbits.toNat ∧ t.csr.kbits.toNat ≤ 32 := by
  obtain ⟨-, rfl⟩ | hmove := step_settings h
  · exact ⟨Nat.le_of_ble_eq_true rfl, le_rfl⟩
  · obtain hkept | ⟨v, hv⟩ := kbits_of_settingsMove hmove
    · rw [hkept]
      exact ⟨h1, h32⟩
    · rw [hv]
      exact clampu_in_range (by decide) (by decide)

/-- CSRW at the address of KBITS is legal on the A-port and writes the register. -/
theorem exec_csrw_kbits {s : State} (ra : Reg) (hport : s.ports.port = .a) :
    exec (.csrw 0x15 ra) s = .next (respond 0 (csrWrite .kbits (reg s ra) s)) := by
  have hlegal : illegality (.csrw 0x15 ra) s = none :=
    illegality_eq_none.mpr ⟨by rw [hport]; rfl, rfl, rfl, nofun⟩
  exact command_of_legal hlegal _

/-- 2^k as a binary32 is finite and exact, for every exponent the format has above the bias. -/
theorem pow2_exact {k : Nat} (hk : k ≤ 127) : f32Mag (pow2 k) = 2 ^ k * 2 ^ 149 ∧ isFinite (pow2 k) = true := by
  have hbits : (127 + k) * 2 ^ 23 = (126 + k) * 2 ^ 23 + 2 ^ 23 := by omega
  constructor
  · rw [pow2, hbits, f32Mag_f32Pack false (by omega) (by decide) (.inr le_rfl), ← pow_add, ← pow_add]
    congr 1
    omega
  · rw [pow2, isFinite_iff, f32Exp_f32Pack false (by omega)]
    omega

end Sys2Proof.Machine
end

/-! ## The statements about the control registers and the parameter store -/

section
open Sys2Proof.Machine

/-- Settles O16: the table by evaluation of the map, the views and the reserved addresses by the two halves of the
address. -/
theorem csrMap : Obligations.CsrMap := by
  intro cfg hch
  refine ⟨?_, fun l hl => ?_, csrAt_eq_none_iff hch⟩
  · simp only [List.forall_mem_cons, List.not_mem_nil, false_imp_iff, implies_true, and_true]
    and_intros <;> rfl
  · obtain ⟨hfreq, hphase, hwave, hwidx⟩ := csrAt_view hl
    obtain ⟨hfreq0, hphase0, hwave0, hwidx0⟩ := csrValue_views_reset cfg l
    simp only [List.forall_mem_cons]
    exact ⟨⟨hfreq, rfl, hfreq0⟩, ⟨hphase, rfl, hphase0⟩, ⟨hwave, rfl, hwave0⟩, ⟨hwidx, rfl, hwidx0⟩, nofun⟩

/-- Settles O19: a step writes KBITS through `clampu` or not at all. -/
theorem kbitsIsClamped : Obligations.KbitsIsClamped :=
  ⟨fun s ra hport => ⟨_, exec_csrw_kbits ra hport, toNat_clampu (v := reg s ra) (by decide) (by decide)⟩,
    fun _ => rfl, fun _ _ => step_keeps_kbits_range, fun _ _ _ => pow2_exact (by omega)⟩

/-- Settles O52: the setter is the only write of a parameter, it clamps, and it notifies the word it stores. -/
theorem parametersStayInRange : Obligations.ParametersStayInRange := by
  refine ⟨fun _ => paramsInRange_resetWith, fun _ _ => step_keeps_paramsInRange, fun s t h hrst p => ?_,
    fun s p hp => ?_⟩
  · obtain ⟨hreset, -⟩ | hmove := step_settings h
    · exact absurd (hreset.symm.trans hrst) (by decide)
    · exact (param_of_settingsMove hmove p).imp_right fun ⟨_, _, _, hnotify⟩ => hnotify
  · exact ⟨_, exec_getp_zero hp, lastResponse_paramResult 0 _ s⟩

end

section
/-! The C-port's commands act on the control agent's part of the state alone (20_memory.md R84, 10_state.md R61): they
commute with exchanging everything else. That one equation gives both the non-interference and the frame. -/

namespace Sys2Proof.Machine

/-! ## Exchanging the audio agent's part of a state -/

/-- The state `a` with the control agent's part of `s`: the configuration, the parameters, the ports and the histories. -/
def withControl (s a : State) : State := { a with cfg := s.cfg, cur := s.cur, ports := s.ports, events := s.events }

theorem withControl_self (s : State) : withControl s s = s := rfl

@[simp] theorem withControl_cfg (s a : State) : (withControl s a).cfg = s.cfg := rfl
@[simp] theorem withControl_ports (s a : State) : (withControl s a).ports = s.ports := rfl

theorem eq_withControl {s u : State} (hcfg : u.cfg = s.cfg) (hcur : u.cur = s.cur) (hports : u.ports = s.ports)
    (hevents : u.events = s.events) : u = withControl s u := by
  rw [withControl, ← hcfg, ← hcur, ← hports, ← hevents]

/-! ## The operations of the C-port commute with the exchange -/

theorem respond_withControl (v : Word) (s a : State) :
    respond v (withControl s a) = withControl (respond v s) a := rfl

theorem param_withControl (s a : State) (p : ParamIdx) : param (withControl s a) p = param s p := rfl

theorem paramResult_withControl {s : State} (hport : s.ports.port = .c) (rd : Reg) (v : Word) (a : State) :
    paramResult rd v (withControl s a) = withControl (paramResult rd v s) a := by
  have hresponds : ∀ {x : State}, x.ports.port = .c → paramResult rd v x = respond v x := fun hx => by
    rw [paramResult, hx]
  rw [hresponds hport, hresponds (x := withControl s a) hport, respond_withControl]

theorem setpEffect_withControl (p : ParamIdx) (v : Word) (s a : State) :
    setpEffect p v (withControl s a) = withControl (setpEffect p v s) a := by
  cases hv : isNaN v with
  | true => rw [setpEffect_of_nan hv, setpEffect_of_nan hv]
  | false => rw [setpEffect_of_number hv, setpEffect_of_number hv]; rfl

theorem encContinue_withControl (rest : List StreamByte) (s a : State) :
    encContinue rest (withControl s a) = withControl (encContinue rest s) a := by
  rw [encContinue, encContinue, apply_ite (withControl · a)]
  rfl

theorem setSi_withControl (bs : List StreamByte) (s a : State) :
    setSi bs (withControl s a) = withControl (setSi bs s) a := rfl

theorem applyGroup_withControl (g : Option (ParamIdx × Word)) (s a : State) :
    applyGroup g (withControl s a) = withControl (applyGroup g s) a := by
  cases g with
  | none => rfl
  | some q => exact setpEffect_withControl q.1 q.2 s a

theorem decContinue_withControl (n : Nat) (pending : List Byte) (s a : State) :
    decContinue n pending (withControl s a) = withControl (decContinue n pending s) a := by
  simp only [decContinue, withControl_cfg, withControl_ports, setSi_withControl, applyGroup_withControl]
  split <;> rfl

/-! ## Legality on the C-port (60_exceptions.md R293, R294, R299) -/

/-- A command the C-port accepts names no delay line and needs no prepared machine. -/
theorem stateFree_of_portAccepts_c {i : Instr} (h : portAccepts i .c = true) :
    delayChannel i = none ∧ i.op.needsPrepared = false := by
  cases i with
  | nop | getp _ _ | pmin _ _ | pmax _ _ | pdef _ _ | setp _ _ | enc | dec => exact ⟨rfl, rfl⟩
  | _ => exact absurd h Bool.false_ne_true

/-- On the C-port the port and the fields alone decide whether a command is legal. -/
theorem illegality_eq_none_iff_of_port_c {i : Instr} {s : State} (hport : s.ports.port = .c) :
    illegality i s = none ↔ portAccepts i .c = true ∧ i.wf s.cfg = true := by
  rw [illegality_eq_none, hport]
  refine ⟨fun ⟨haccepts, hwf, _, _⟩ => ⟨haccepts, hwf⟩, fun ⟨haccepts, hwf⟩ => ⟨haccepts, hwf, ?_, ?_⟩⟩
  · rw [channelInUse, (stateFree_of_portAccepts_c haccepts).1]
  · rw [(stateFree_of_portAccepts_c haccepts).2]
    exact nofun

theorem illegality_withControl_eq_none_iff {i : Instr} {s : State} (hport : s.ports.port = .c) (a : State) :
    illegality i (withControl s a) = none ↔ illegality i s = none := by
  rw [illegality_eq_none_iff_of_port_c hport, illegality_eq_none_iff_of_port_c (s := withControl s a) hport,
    withControl_cfg]

/-! ## A command on the C-port -/

/-- Every arm runs in the frame of a command: an illegal command is suppressed (60_exceptions.md R292). -/
theorem exec_of_illegal {i : Instr} {s : State} (h : illegality i s ≠ none) : exec i s = .next (suppress s) := by
  obtain ⟨x, hx⟩ := Option.ne_none_iff_exists'.mp h
  cases i <;> exact command_of_illegal hx _

theorem command_next_withControl {i : Instr} {s : State} {f : State → State} (hport : s.ports.port = .c)
    (hlegal : illegality i s = none) (hf : ∀ a, f (withControl s a) = withControl (f s) a) :
    ∃ t, command i s (.next (f s)) = .next t ∧
      ∀ a, command i (withControl s a) (.next (f (withControl s a))) = .next (withControl t a) :=
  ⟨f s, command_of_legal hlegal _, fun a => by
    rw [command_of_legal ((illegality_withControl_eq_none_iff hport a).mpr hlegal), hf]⟩

/-- A legal command on the C-port completes, and commutes with exchanging the audio agent's part of the state. -/
theorem exec_withControl {i : Instr} {s : State} (hport : s.ports.port = .c) (hlegal : illegality i s = none) :
    ∃ t, exec i s = .next t ∧ ∀ a, exec i (withControl s a) = .next (withControl t a) := by
  have haccepts := ((illegality_eq_none_iff_of_port_c hport).mp hlegal).1
  cases i with
  | nop => exact command_next_withControl (f := respond 0) hport hlegal (respond_withControl 0 s)
  | getp rd p =>
    exact command_next_withControl (f := fun x => paramResult rd (param x p) x) hport hlegal
      (paramResult_withControl hport rd (param s p))
  | pmin rd p =>
    exact command_next_withControl (f := fun x => paramResult rd (paramMin x p) x) hport hlegal
      (paramResult_withControl hport rd (paramMin s p))
  | pmax rd p =>
    exact command_next_withControl (f := fun x => paramResult rd (paramMax x p) x) hport hlegal
      (paramResult_withControl hport rd (paramMax s p))
  | pdef rd p =>
    exact command_next_withControl (f := fun x => paramResult rd (paramDef x p) x) hport hlegal
      (paramResult_withControl hport rd (paramDef s p))
  | setp p imm =>
    refine command_next_withControl (f := fun x => respond (param (setpEffect p imm x) p) (setpEffect p imm x)) hport
      hlegal fun a => ?_
    rw [setpEffect_withControl, param_withControl, respond_withControl]
  | enc =>
    exact command_next_withControl (f := fun x => encContinue (image x) x) hport hlegal
      (encContinue_withControl (image s) s)
  | dec => exact command_next_withControl (f := decContinue 0 []) hport hlegal (decContinue_withControl 0 [] s)
  | _ => exact absurd haccepts Bool.false_ne_true

/-- Two machines with the same control part answer a C-port command with the same control part. -/
theorem exec_control_eq {s : State} (i : Instr) (a : State) (hport : s.ports.port = .c) :
    ∃ t v, exec i s = .next t ∧ exec i (withControl s a) = .next v ∧
      v.cur = t.cur ∧ v.ports = t.ports ∧ v.events = t.events := by
  by_cases hlegal : illegality i s = none
  · obtain ⟨t, hs, hexchange⟩ := exec_withControl hport hlegal
    exact ⟨t, withControl t a, hs, hexchange a, rfl, rfl, rfl⟩
  · have hillegal : illegality i (withControl s a) ≠ none :=
      mt (illegality_withControl_eq_none_iff hport a).mp hlegal
    exact ⟨suppress s, suppress (withControl s a), exec_of_illegal hlegal, exec_of_illegal hillegal, rfl, rfl, rfl⟩

/-- A C-port command leaves the audio agent's part as it was, but for the ILL flag of a suppressed one. -/
theorem exec_control_frame {i : Instr} {s t : State} (hport : s.ports.port = .c) (h : exec i s = .next t) :
    t = withControl t s ∨ t = suppress s := by
  by_cases hlegal : illegality i s = none
  · obtain ⟨u, -, hexchange⟩ := exec_withControl hport hlegal
    have hs := hexchange s
    rw [withControl_self, h] at hs
    cases hs
    exact .inl rfl
  · rw [exec_of_illegal hlegal] at h
    exact .inr (Host.Outcome.next.inj h).symm

end Sys2Proof.Machine
end

/-! ## The statement about the control agent -/

section
open Sys2Proof.Machine

/-- Settles O56: a C-port command commutes with exchanging the audio agent's part of the state, or it is suppressed. -/
theorem controlPortIsolation : Obligations.ControlPortIsolation := by
  refine ⟨fun i s u hport hcfg hcur hports hevents => ?_, fun i s t hport h => ?_⟩
  · rw [eq_withControl hcfg hcur hports hevents]
    exact exec_control_eq i u hport
  · obtain hkept | rfl := exec_control_frame hport h
    · rw [hkept]
      exact ⟨rfl, rfl, rfl, rfl, .inl rfl⟩
    · exact ⟨rfl, rfl, rfl, rfl, .inr rfl⟩

end

section
/-! NOP (40_system_datapath.md R130): legal on both ports, with no effect but its response. Its format uses no bit of the
packet (30_encoding.md R107), so one packet alone is NOP. -/

namespace Sys2Proof

/-! ## The two words of a packet (30_encoding.md R103) -/

theorem packetCw_append_packetImm (pkt : Packet) : (packetCw pkt ++ packetImm pkt : BitVec (32 + 32)) = pkt :=
  (BitVec.extractLsb'_append_extractLsb'_eq_extractLsb' rfl).trans BitVec.extractLsb'_eq_self

theorem packet_eq_zero_iff {pkt : Packet} : pkt = 0 ↔ packetCw pkt = 0 ∧ packetImm pkt = 0 := by
  refine ⟨?_, fun ⟨hcw, himm⟩ => ?_⟩
  · rintro rfl
    exact ⟨rfl, rfl⟩
  · rw [← packetCw_append_packetImm pkt, hcw, himm]
    rfl

/-! ## Decoding a row (30_encoding.md R107, R110) -/

/-- A packet with a row's opcode is that row's command, unless it has a bit set that the format does not use. -/
theorem decode_of_opOf {pkt : Packet} {op : Op} (h : opOf (cwOp (packetCw pkt)) = some op) :
    decode pkt = if unusedBitSet op (packetCw pkt) (packetImm pkt) then .error .unused
      else .ok (operandsOf op (packetCw pkt) (packetImm pkt)) := by
  simp only [decode, h]

/-- The mask of NOP's row covers the whole control word. -/
theorem and_mask_nop (cw : Word) : cw &&& Op.nop.mask = cw := BitVec.and_allOnes

theorem unusedBitSet_nop_iff {cw imm : Word} : unusedBitSet .nop cw imm = true ↔ ¬ (cw = 0 ∧ imm = 0) := by
  rw [unusedBitSet, and_mask_nop]
  simp [Op.pattern, Op.usesImm, imp_iff_not_or]

theorem decode_of_op_zero {pkt : Packet} (h : cwOp (packetCw pkt) = 0) :
    decode pkt = if pkt = 0 then .ok .nop else .error .unused := by
  have hrow : opOf (cwOp (packetCw pkt)) = some .nop := by rw [h]; rfl
  simp only [decode_of_opOf hrow, unusedBitSet_nop_iff, packet_eq_zero_iff, ite_not, operandsOf]

namespace Machine

theorem illegality_nop (s : State) : illegality .nop s = none := by
  have haccepts : portAccepts .nop s.ports.port = true := by cases s.ports.port <;> rfl
  exact illegality_eq_none.mpr ⟨haccepts, rfl, rfl, nofun⟩

theorem exec_nop (s : State) : exec .nop s = .next (respond 0 s) := command_of_legal (illegality_nop s) _

end Machine

end Sys2Proof
end

/-! ## The statement about NOP -/

section
open Sys2Proof Sys2Proof.Machine

/-- Settles O11: NOP is legal on either port, and a packet of its row is NOP when both its words are zero. -/
theorem nopDoesNothing : Obligations.NopDoesNothing := ⟨exec_nop, fun _ => decode_of_op_zero⟩

end

section
/-! The waveshaper in an unknown mode (44_waveshaper.md R239): SHAPE is legal, `Shape(m, x)` is x, no draw is taken, and no
well-formed configuration names such a mode as not designed (R244, 00_scope.md R6). -/

namespace Sys2Proof.Machine

/-! ## The transfer function outside the seven modes (R231, R237, R239) -/

theorem shape_of_unknown (s : State) {m : Word} (x : Word) (hm : ¬ (1 ≤ m.toNat ∧ m.toNat ≤ 7)) : shape s m x = x := by
  unfold shape
  split
  case h_8 => rfl
  all_goals omega

theorem shapeDraws_of_ne_six {m : Word} (hm : m.toNat ≠ 6) : shapeDraws m = 0 := if_neg hm

@[simp] theorem takeDraws_zero (s : State) : takeDraws 0 s = s := rfl

/-! ## The mode named as not designed (R244) -/

theorem unspecMode_in_range {cfg : Config} {m : Nat} (hwf : cfg.wf = true) (h : cfg.unspecMode = some m) :
    1 ≤ m ∧ m ≤ 7 := by
  simp only [Config.wf, Bool.and_eq_true, h, decide_eq_true_eq] at hwf
  obtain ⟨-, hrange⟩ := hwf
  exact hrange

theorem modeNotDesigned_of_unknown {s : State} (hwf : s.cfg.wf = true)
    (hm : ¬ (1 ≤ s.csr.mode.toNat ∧ s.csr.mode.toNat ≤ 7)) : modeNotDesigned s = false := by
  have hne : s.cfg.unspecMode ≠ some s.csr.mode.toNat := fun h => hm (unspecMode_in_range hwf h)
  rw [modeNotDesigned, beq_false_of_ne hne, Bool.false_and]

/-! ## SHAPE (R230) -/

theorem shapeEffect_of_designed {s : State} (h : modeNotDesigned s = false) (rd : Reg) (x : Word) :
    shapeEffect rd x s = .next (writeResult rd (shape s s.csr.mode x) (takeDraws (shapeDraws s.csr.mode) s)) := by
  simp only [shapeEffect, h, Bool.false_eq_true, if_false]

theorem shapeEffect_of_unknown {s : State} (hwf : s.cfg.wf = true)
    (hm : ¬ (1 ≤ s.csr.mode.toNat ∧ s.csr.mode.toNat ≤ 7)) (rd : Reg) (x : Word) :
    shapeEffect rd x s = .next (writeResult rd x s) := by
  rw [shapeEffect_of_designed (modeNotDesigned_of_unknown hwf hm), shape_of_unknown s x hm,
    shapeDraws_of_ne_six (by omega), takeDraws_zero]

/-- On the A-port SHAPE is never suppressed: it has no reserved field value, names no delay line and needs no PREPARE. -/
theorem exec_shape {s : State} (rd ra : Reg) (hport : s.ports.port = .a) :
    exec (.shape rd ra) s = shapeEffect rd (reg s ra) s := by
  have hlegal : illegality (.shape rd ra) s = none :=
    illegality_eq_none.mpr ⟨by rw [hport]; rfl, rfl, rfl, nofun⟩
  exact command_of_legal hlegal _

end Sys2Proof.Machine
end

/-! ## The statement about unknown modes -/

section
open Sys2Proof.Machine

/-- Settles O39: SHAPE is legal, a well-formed configuration names no unknown mode as not designed, and the transfer
function of an unknown mode is the identity. -/
theorem unknownModePassesThrough : Obligations.UnknownModePassesThrough :=
  ⟨fun s _ x => shape_of_unknown s x,
    fun s rd ra hport hm hwf => (exec_shape rd ra hport).trans (shapeEffect_of_unknown hwf hm rd (reg s ra)),
    fun _ => rfl⟩

end

section
/-! Suppression (30_encoding.md R110, 60_exceptions.md R292, R293, R299): what decides whether a command is legal, and what a
command can do to STATUS and, on the A-port, to the parameters. -/

namespace Sys2Proof

/-! ## The columns of the opcode table (60_exceptions.md R293, R299) -/

theorem Op.needsPrepared_iff (op : Op) :
    op.needsPrepared = true ↔ op ∈ [Op.lnext, .dlw, .dladv, .push, .pop, .dlfb, .dly, .chor] := by
  cases op <;> decide

theorem Op.onPort_a_iff (op : Op) : op.onPort .a = true ↔ op ∉ [Op.setp, .enc, .dec] := by
  cases op <;> decide

theorem Op.onPort_c_iff (op : Op) :
    op.onPort .c = true ↔ op ∈ [Op.nop, .getp, .pmin, .pmax, .pdef, .setp, .enc, .dec] := by
  cases op <;> decide

namespace Machine

/-! ## What decides legality -/

theorem channelInUse_congr {s t : State} (hnch : t.csr.nch = s.csr.nch) (i : Instr) :
    channelInUse t i = channelInUse s i := by
  unfold channelInUse
  rw [hnch]

/-- Besides the command, legality looks at the configuration, the port and NCH, and at PREPARED only for a command that needs
it. -/
theorem illegality_congr {i : Instr} {s t : State} (hcfg : t.cfg = s.cfg) (hport : t.ports.port = s.ports.port)
    (hnch : t.csr.nch = s.csr.nch) (hprepared : i.op.needsPrepared = true → prepared t = prepared s) :
    illegality i t = illegality i s := by
  have hgate : (i.op.needsPrepared && !prepared t) = (i.op.needsPrepared && !prepared s) := by
    cases hneeds : i.op.needsPrepared with
    | true => rw [hprepared hneeds]
    | false => rfl
  rw [illegality, hcfg, hport, channelInUse_congr hnch, hgate, ← illegality]

/-! ## Three ways to be suppressed -/

theorem exec_of_not_portAccepts {i : Instr} {s : State} (h : portAccepts i s.ports.port = false) :
    exec i s = .next (suppress s) := by
  refine exec_of_illegal fun hlegal => ?_
  obtain ⟨haccepts, -⟩ := illegality_eq_none.mp hlegal
  exact absurd haccepts (ne_true_of_eq_false h)

theorem exec_of_wrong_port {i : Instr} {s : State} (h : i.op.onPort s.ports.port = false) :
    exec i s = .next (suppress s) :=
  exec_of_not_portAccepts (by unfold portAccepts; rw [h, Bool.false_and])

theorem exec_of_not_prepared {i : Instr} {s : State} (hneeds : i.op.needsPrepared = true)
    (h : prepared s = false) : exec i s = .next (suppress s) := by
  refine exec_of_illegal fun hlegal => ?_
  obtain ⟨-, -, -, hgate⟩ := illegality_eq_none.mp hlegal
  exact absurd (hgate hneeds) (ne_true_of_eq_false h)

/-- On the C-port a parameter read that names a register other than `D0` is not accepted. -/
theorem portAccepts_c_paramRead {rd : Reg} (hrd : rd ≠ 0) {p : ParamIdx} {i : Instr}
    (hi : i ∈ [Instr.getp rd p, .pmin rd p, .pmax rd p, .pdef rd p]) : portAccepts i .c = false := by
  have hne : (rd == 0) = false := beq_false_of_ne hrd
  simp only [List.mem_cons, List.not_mem_nil, or_false] at hi
  obtain rfl | rfl | rfl | rfl := hi <;> exact hne

/-! ## What a command can do to STATUS (10_state.md R36) -/

/-- All a command can do to the STATUS word. -/
inductive StatusMove (st : Word) : Word → Prop where
  | kept : StatusMove st st
  | suppressed : StatusMove st (statusSuppressed st)
  | prepared : StatusMove st (statusPrepared st)
  | rejected : StatusMove st (statusRejected st)
  | released : StatusMove st (statusReleased st)

/-- No move of STATUS clears ILL. -/
theorem StatusMove.keeps_ill {st st' : Word} (h : StatusMove st st') (hill : st.getLsbD 1 = true) :
    st'.getLsbD 1 = true := by
  cases h with
  | kept => exact hill
  | suppressed => simp [statusSuppressed]
  | prepared => simp [statusPrepared, hill]
  | rejected => simp [statusRejected, hill]
  | released => simp [statusReleased, hill]

/-! ## Operations that keep the control registers -/

/-- `u` is `s` but for the all-pass states and the counter of unspecified words: what tap reads may change. -/
def TapFrame (s u : State) : Prop := u = { s with dls := u.dls, unspecs := u.unspecs }

theorem TapFrame.trans {s t u : State} (hst : TapFrame s t) (htu : TapFrame t u) : TapFrame s u := by
  rw [TapFrame, htu, hst]

theorem TapFrame.csr_eq {s u : State} (h : TapFrame s u) : u.csr = s.csr := by rw [h]

theorem csr_tapRead {c : Chan} {d : Word} {mode : Interp} {slot : Slot} {s u : State} {v : Word}
    (h : tapRead c d mode slot s = .ok (v, u)) : u.csr = s.csr := TapFrame.csr_eq (tapRead_frame h)

theorem chorSum_tapFrame {c : Chan} {l v : Word} {s u : State} (h : chorSum c l s = .ok (v, u)) : TapFrame s u := by
  unfold chorSum chorTap at h
  split at h
  next => cases h
  next h1 =>
    have hfirst : TapFrame _ _ := tapRead_frame h1
    split at h
    next => cases h; exact hfirst
    next =>
      split at h
      next => cases h
      next h2 =>
        have hsecond := hfirst.trans (tapRead_frame h2)
        split at h
        next => cases h; exact hsecond
        next =>
          split at h
          next => cases h
          next h3 => cases h; exact hsecond.trans (tapRead_frame h3)

theorem csr_popEffect {c : Chan} {d : Word} {mode : Interp} {slot : Slot} {rd : Reg} {s t : State}
    (h : popEffect rd (tapRead c d mode slot s) = .next t) : t.csr = s.csr := by
  unfold popEffect at h
  split at h
  next => cases h
  next hread => cases h; exact (writeResult_csr ..).trans (csr_tapRead hread)

theorem csr_dlyEffect {rd : Reg} {c : Chan} {dry : Word} {s t : State} (h : dlyEffect rd c dry s = .next t) :
    t.csr = s.csr := by
  unfold dlyEffect at h
  split at h
  next => cases h
  next hread => cases h; simpa [dlyFinish, advance] using csr_tapRead hread

theorem csr_chorEffect {rd : Reg} {c : Chan} {dry l : Word} {s t : State} (h : chorEffect rd c dry l s = .next t) :
    t.csr = s.csr := by
  unfold chorEffect at h
  split at h
  next => cases h
  next hsum => cases h; simpa [chorFinish] using (chorSum_tapFrame hsum).csr_eq

theorem csr_shapeEffect {rd : Reg} {x : Word} {s t : State} (h : shapeEffect rd x s = .next t) : t.csr = s.csr := by
  unfold shapeEffect at h
  split at h
  next => cases h
  next => cases h; rfl

theorem csr_paramResult (rd : Reg) (v : Word) (s : State) : (paramResult rd v s).csr = s.csr := by
  unfold paramResult
  split <;> rfl

/-- CSRW and THR have no store to STATUS. -/
theorem csrStore_status (x : Csrs) (r : Csr) (v : Word) : (csrStore x r v).status = x.status := by
  cases r <;> rfl

/-! ## A command on the A-port -/

/-- What a command on the A-port may do: move STATUS; the parameters stay. -/
def AudioMove (s t : State) : Prop := StatusMove s.csr.status t.csr.status ∧ t.cur = s.cur

theorem AudioMove.of_eq {s t : State} (hcsr : t.csr = s.csr) (hsettings : settings t = settings s) : AudioMove s t :=
  ⟨by rw [hcsr]; exact .kept, congrArg Settings.cur hsettings⟩

theorem suppress_audioMove (s : State) : AudioMove s (suppress s) := ⟨.suppressed, rfl⟩

theorem prepareEffect_audioMove (sr blk : Word) (nch : Chan) (pd : ParamIdx) (s : State) :
    AudioMove s (prepareEffect sr blk nch pd s) := by
  unfold prepareEffect
  split
  · exact ⟨.rejected, rfl⟩
  · exact ⟨.prepared, rfl⟩

theorem csrWrite_audioMove (r : Csr) (v : Word) (s : State) : AudioMove s (csrWrite r v s) :=
  ⟨by rw [csrWrite_csr, csrStore_status]; exact .kept, rfl⟩

theorem csrwEffect_audioMove (a : CsrAddr) (v : Word) (s : State) : AudioMove s (csrwEffect a v s) := by
  unfold csrwEffect
  split
  next r _ => exact csrWrite_audioMove r v s
  next => exact suppress_audioMove s

theorem csrrEffect_audioMove (rd : Reg) (a : CsrAddr) (s : State) : AudioMove s (csrrEffect rd a s) := by
  unfold csrrEffect
  split
  next => exact .of_eq rfl rfl
  next => exact suppress_audioMove s

theorem command_audioMove {i : Instr} {s t : State} {e : Host.Outcome State Fault Refusal}
    (h : command i s e = .next t) (he : e = .next t → AudioMove s t) : AudioMove s t := by
  obtain ⟨-, rfl⟩ | ⟨-, hnext⟩ := command_next h
  · exact suppress_audioMove s
  · exact he hnext

/-- `command_audioMove` for an effect that always answers a next state. -/
theorem command_next_audioMove {i : Instr} {s t u : State} (h : command i s (.next u) = .next t)
    (hu : AudioMove s u) : AudioMove s t :=
  command_audioMove h fun e => Host.Outcome.next.inj e ▸ hu

/-- SETP, ENC and DEC are suppressed on the A-port; of the others PREPARE and RELEASE alone move STATUS. -/
theorem exec_audioMove {i : Instr} {s t : State} (hport : s.ports.port = .a) (h : exec i s = .next t) :
    AudioMove s t := by
  have hsuppressed (hright : i.op.onPort .a = false) : AudioMove s t := by
    rw [exec_of_wrong_port (hport ▸ hright)] at h
    exact Host.Outcome.next.inj h ▸ suppress_audioMove s
  cases i with
  | setp p imm => exact hsuppressed rfl
  | enc => exact hsuppressed rfl
  | dec => exact hsuppressed rfl
  | prepare ra rb nch pd => exact command_next_audioMove h (prepareEffect_audioMove _ _ nch pd s)
  | release => exact command_next_audioMove h ⟨.released, rfl⟩
  | csrr rd a => exact command_next_audioMove h (csrrEffect_audioMove rd a s)
  | csrw a ra => exact command_next_audioMove h (csrwEffect_audioMove a _ s)
  | thr b ra => exact command_next_audioMove h (csrWrite_audioMove (thresholdCsr b) _ s)
  | getp rd p | pmin rd p | pmax rd p | pdef rd p =>
    exact command_next_audioMove h (.of_eq (csr_paramResult rd _ s) (settings_paramResult rd _ s))
  | pop rd ra c interp tap => exact command_audioMove h fun e => .of_eq (csr_popEffect e) (settings_popEffect e)
  | dly rd ra c => exact command_audioMove h fun e => .of_eq (csr_dlyEffect e) (settings_dlyEffect e)
  | chor rd ra rb c => exact command_audioMove h fun e => .of_eq (csr_chorEffect e) (settings_chorEffect e)
  | shape rd ra | dist rd ra =>
    exact command_audioMove h fun e => .of_eq (csr_shapeEffect e) (settings_shapeEffect e)
  | lnext rd l =>
    refine command_audioMove h fun e => ?_
    split at e
    next => cases e
    next => cases e; exact .of_eq rfl rfl
  | _ => exact command_next_audioMove h (.of_eq rfl rfl)

theorem csr_withControl (s a : State) : (withControl s a).csr = a.csr := rfl

/-- A C-port command keeps STATUS or is suppressed; an A-port command moves it as `AudioMove` says. -/
theorem exec_statusMove {i : Instr} {s t : State} (h : exec i s = .next t) :
    StatusMove s.csr.status t.csr.status := by
  cases hport : s.ports.port with
  | a => exact (exec_audioMove hport h).1
  | c =>
    obtain hkept | rfl := exec_control_frame hport h
    · rw [hkept, csr_withControl]
      exact .kept
    · exact .suppressed

theorem illegalSeen_takeReset (s : State) : illegalSeen (takeReset s) = false := by
  change (0x00000000 : Word).getLsbD 1 = false
  decide

theorem step_of_undecoded {s t : State} {pkt : Packet} {e : Suppression} (haction : nextAction s = .command pkt t)
    (hdecode : decode pkt = .error e) : step s = .next (suppress t) := by
  simp only [step, haction, hdecode]

end Machine

end Sys2Proof
end

/-! ## The statements about suppression -/

section
open Sys2Proof Sys2Proof.Machine

/-- Settles O7: every arm runs in the frame of a command, no move of STATUS clears ILL, and legality reads no data. -/
theorem suppressedCommand : Obligations.SuppressedCommand :=
  ⟨fun _ _ hillegal => exec_of_illegal hillegal,
    fun _ _ _ _ haction hdecode => step_of_undecoded haction hdecode,
    fun _ _ _ h hill => (exec_statusMove h).keeps_ill hill,
    illegalSeen_takeReset,
    fun _ _ _ hcfg hport hnch hprepared => illegality_congr hcfg hport hnch fun _ => hprepared⟩

/-- Settles O9: the eight rows are those with a mark in the column "Prep", and legality reads PREPARED for them alone. -/
theorem preparedGate : Obligations.PreparedGate := by
  refine ⟨fun s hunprepared op hop i hi => ?_, fun s i hop => ?_⟩
  · subst hi
    exact exec_of_not_prepared ((Op.needsPrepared_iff i.op).mpr hop) hunprepared
  · exact illegality_congr rfl rfl rfl fun hneeds => absurd ((Op.needsPrepared_iff i.op).mp hneeds) hop

/-- Settles O10: the column "Port" is the table of R299, a command the port does not accept is suppressed, and the A-port
accepts no command that writes a parameter. -/
theorem portRights : Obligations.PortRights :=
  ⟨Op.onPort_a_iff, Op.onPort_c_iff, fun _ _ hright => exec_of_wrong_port hright,
    fun _ _ _ hport hrd _ hi => exec_of_not_portAccepts (hport ▸ portAccepts_c_paramRead hrd hi),
    fun _ _ _ hport h => (exec_audioMove hport h).2⟩

end

section
/-! The command map (30_encoding.md R104, R107, R108): a control word is its fields one after the other, and the mask of a
row tests the opcode and, field by field, the bits its format does not use. -/

namespace Sys2Proof

/-! ## A control word is its fields -/

theorem append_fields (cw : Word) :
    (cwOp cw ++ cwRd cw ++ cwRa cw ++ cwRb cw ++ cwRc cw ++ cwCh cw ++ cwCsr cw : BitVec 32) = cw := by
  apply BitVec.eq_of_getLsbD_eq
  intro i hi
  simp only [cwOp, cwRd, cwRa, cwRb, cwRc, cwCh, cwCsr, BitVec.getLsbD_append, BitVec.getLsbD_extractLsb']
  split_ifs <;> simp <;> grind

theorem and_fields (c c' : BitVec 8) (rd rd' ra ra' rb rb' rc rc' : Reg) (ch ch' : Chan) (f f' : BitVec 8) :
    (c ++ rd ++ ra ++ rb ++ rc ++ ch ++ f &&& c' ++ rd' ++ ra' ++ rb' ++ rc' ++ ch' ++ f' :
        BitVec (8 + 3 + 3 + 3 + 3 + 4 + 8)) =
      (c &&& c') ++ (rd &&& rd') ++ (ra &&& ra') ++ (rb &&& rb') ++ (rc &&& rc') ++ (ch &&& ch') ++ (f &&& f') := by
  simp only [BitVec.and_append]

/-- The sub-fields of `f` are cut from its eight bits (30_encoding.md R106). -/
theorem subfields_eq (cw : Word) :
    cwP cw = (cwCsr cw).extractLsb' 0 5 ∧ cwLow2 cw = (cwCsr cw).extractLsb' 0 2 ∧
      cwTap cw = (cwCsr cw).extractLsb' 2 2 := by
  simp [cwP, cwLow2, cwTap, cwCsr, BitVec.extractLsb'_extractLsb'_of_le]

section
variable (op : Op) (rd ra rb rc : Reg) (ch : Chan)

@[simp] theorem cwP_controlWord (hi : BitVec 3) (p : ParamIdx) :
    cwP (controlWord op rd ra rb rc ch (hi ++ p : BitVec (3 + 5))) = p := by
  rw [(subfields_eq _).1, cwCsr_controlWord, BitVec.extractLsb'_append_eq_right]

@[simp] theorem cwLow2_controlWord (hi : BitVec 6) (b : BitVec 2) :
    cwLow2 (controlWord op rd ra rb rc ch (hi ++ b : BitVec (6 + 2))) = b := by
  rw [(subfields_eq _).2.1, cwCsr_controlWord, BitVec.extractLsb'_append_eq_right]

@[simp] theorem cwTap_controlWord (hi : BitVec 4) (tap b : BitVec 2) :
    cwTap (controlWord op rd ra rb rc ch (hi ++ tap ++ b : BitVec (4 + 2 + 2))) = tap := by
  rw [(subfields_eq _).2.2, cwCsr_controlWord, BitVec.extractLsb'_append_eq_of_le (by decide)]
  exact BitVec.extractLsb'_append_eq_right

end

/-! ## The mask of a row (30_encoding.md R107, R108) -/

theorem cwOp_mask (op : Op) : cwOp op.mask = 0xFF := by cases op <;> rfl

theorem pattern_eq (op : Op) : op.pattern = controlWord op 0 0 0 0 0 0 := by cases op <;> rfl

/-- A control word with the opcode of a row passes its mask exactly when no field has a bit the mask tests. -/
theorem controlWord_and_mask_iff (op : Op) (rd ra rb rc : Reg) (ch : Chan) (f : BitVec 8) :
    controlWord op rd ra rb rc ch f &&& op.mask = op.pattern ↔
      rd &&& cwRd op.mask = 0 ∧ ra &&& cwRa op.mask = 0 ∧ rb &&& cwRb op.mask = 0 ∧ rc &&& cwRc op.mask = 0 ∧
        ch &&& cwCh op.mask = 0 ∧ f &&& cwCsr op.mask = 0 := by
  have hcode : op.code &&& 0xFF = op.code := BitVec.and_allOnes
  have hand : controlWord op rd ra rb rc ch f &&& op.mask =
      controlWord op (rd &&& cwRd op.mask) (ra &&& cwRa op.mask) (rb &&& cwRb op.mask) (rc &&& cwRc op.mask)
        (ch &&& cwCh op.mask) (f &&& cwCsr op.mask) := by
    conv_lhs => rw [← append_fields op.mask, cwOp_mask]
    exact (and_fields ..).trans (by rw [hcode]; rfl)
  rw [hand, pattern_eq]
  constructor
  · intro h
    exact ⟨by simpa using congrArg cwRd h, by simpa using congrArg cwRa h, by simpa using congrArg cwRb h,
      by simpa using congrArg cwRc h, by simpa using congrArg cwCh h, by simpa using congrArg cwCsr h⟩
  · rintro ⟨hrd, hra, hrb, hrc, hch, hf⟩
    rw [hrd, hra, hrb, hrc, hch, hf]

/-- A word that passes the mask of a row has the row's opcode. -/
theorem cwOp_of_and_mask {op : Op} {cw : Word} (h : cw &&& op.mask = op.pattern) : cwOp cw = op.code := by
  have hcode := congrArg cwOp h
  rw [pattern_eq, cwOp_controlWord] at hcode
  have hop : cwOp (cw &&& op.mask) = cwOp cw &&& cwOp op.mask := BitVec.extractLsb'_and
  rw [← hcode, hop, cwOp_mask]
  exact BitVec.and_allOnes.symm

/-! ## Encoding a command (30_encoding.md R105) -/

theorem interpOf_interpBits (m : Interp) : Machine.interpOf (Machine.interpBits m) = m := by cases m <;> rfl

theorem interpBits_interpOf (b : BitVec 2) : Machine.interpBits (Machine.interpOf b) = b := by
  revert b
  decide

/-! The layouts of `f` that hold a sub-field: `p`, two low bits, and `tap` over two low bits. -/

theorem paramField_and_mask (p : ParamIdx) : (0#3 ++ p : BitVec (3 + 5)) &&& 224#8 = 0#8 := by
  revert p
  decide

theorem lowField_and_mask (b : BitVec 2) : (0#6 ++ b : BitVec (6 + 2)) &&& 252#8 = 0#8 := by
  revert b
  decide

theorem tapField_and_mask (tap b : BitVec 2) : (0#4 ++ tap ++ b : BitVec (4 + 2 + 2)) &&& 240#8 = 0#8 := by
  revert tap b
  decide

theorem paramField_of_and_mask {f : BitVec 8} (h : f &&& 224#8 = 0#8) :
    (0#3 ++ f.extractLsb' 0 5 : BitVec (3 + 5)) = f := by
  revert f
  decide

theorem lowField_of_and_mask {f : BitVec 8} (h : f &&& 252#8 = 0#8) :
    (0#6 ++ f.extractLsb' 0 2 : BitVec (6 + 2)) = f := by
  revert f
  decide

theorem tapField_of_and_mask {f : BitVec 8} (h : f &&& 240#8 = 0#8) :
    (0#4 ++ f.extractLsb' 2 2 ++ f.extractLsb' 0 2 : BitVec (4 + 2 + 2)) = f := by
  revert f
  decide

/-- A command sets no bit its row's mask tests: a field the format has not is zero, and one it has lies outside the mask. -/
theorem encodeCw_and_mask (i : Instr) : encodeCw i &&& i.op.mask = i.op.pattern := by
  cases i <;> refine (controlWord_and_mask_iff ..).mpr ?_ <;>
    simp [Op.mask, cwRd, cwRa, cwRb, cwRc, cwCh, cwCsr, paramField_and_mask, lowField_and_mask, tapField_and_mask]

theorem encodeImm_of_not_usesImm {i : Instr} (h : i.op.usesImm = false) : encodeImm i = 0 := by
  cases i with
  | ldi | setp => cases h
  | _ => rfl

theorem operandsOf_encode (i : Instr) : operandsOf i.op (encodeCw i) (encodeImm i) = i := by
  cases i <;> simp [operandsOf, Instr.op, encodeCw, encodeImm, interpOf_interpBits]

theorem unusedBitSet_eq_false_iff {op : Op} {cw imm : Word} :
    unusedBitSet op cw imm = false ↔ cw &&& op.mask = op.pattern ∧ (op.usesImm = true ∨ imm = 0) := by
  simp [unusedBitSet, Bool.or_eq_false_iff]
  grind

theorem unusedBitSet_encode (i : Instr) : unusedBitSet i.op (encodeCw i) (encodeImm i) = false := by
  refine unusedBitSet_eq_false_iff.mpr ⟨encodeCw_and_mask i, ?_⟩
  cases h : i.op.usesImm with
  | true => exact .inl rfl
  | false => exact .inr (encodeImm_of_not_usesImm h)

/-! ## Decoding (30_encoding.md R107, R110) -/

/-- A packet decodes exactly when it passes the mask of a row and, unless the row uses the immediate, has none. -/
theorem decode_eq_ok_iff {pkt : Packet} {i : Instr} :
    decode pkt = .ok i ↔
      ∃ op : Op, packetCw pkt &&& op.mask = op.pattern ∧ (op.usesImm = true ∨ packetImm pkt = 0) ∧
        operandsOf op (packetCw pkt) (packetImm pkt) = i := by
  constructor
  · intro h
    cases hrow : opOf (cwOp (packetCw pkt)) with
    | none => simp [decode, hrow] at h
    | some op =>
      rw [decode_of_opOf hrow] at h
      split at h
      next => cases h
      next hused =>
        obtain ⟨hmask, himm⟩ := unusedBitSet_eq_false_iff.mp (Bool.eq_false_of_not_eq_true hused)
        exact ⟨op, hmask, himm, Except.ok.inj h⟩
  · rintro ⟨op, hmask, himm, rfl⟩
    have hrow : opOf (cwOp (packetCw pkt)) = some op := by rw [cwOp_of_and_mask hmask, opOf_code]
    rw [decode_of_opOf hrow, unusedBitSet_eq_false_iff.mpr ⟨hmask, himm⟩]
    rfl

theorem op_operandsOf (op : Op) (cw imm : Word) : (operandsOf op cw imm).op = op := by cases op <;> rfl

theorem reg_and_mask (r : Reg) : r &&& 7#3 = r := BitVec.and_allOnes

theorem chan_and_mask (c : Chan) : c &&& 15#4 = c := BitVec.and_allOnes

theorem byte_and_mask (f : BitVec 8) : f &&& 255#8 = f := BitVec.and_allOnes

/-- With the fields its format has not at zero, the control word of a row is that of the command decoded from it. -/
theorem encodeCw_operandsOf_controlWord {op : Op} {rd ra rb rc : Reg} {ch : Chan} {f : BitVec 8} (imm : Word)
    (h : controlWord op rd ra rb rc ch f &&& op.mask = op.pattern) :
    encodeCw (operandsOf op (controlWord op rd ra rb rc ch f) imm) = controlWord op rd ra rb rc ch f := by
  obtain ⟨hrd, hra, hrb, hrc, hch, hf⟩ := (controlWord_and_mask_iff ..).mp h
  cases op <;>
    simp [Op.mask, cwRd, cwRa, cwRb, cwRc, cwCh, cwCsr, reg_and_mask, chan_and_mask, byte_and_mask]
      at hrd hra hrb hrc hch hf <;>
    simp [operandsOf, encodeCw, subfields_eq, interpBits_interpOf, paramField_of_and_mask, lowField_of_and_mask, tapField_of_and_mask, *]

/-- What the row of a packet decodes encodes again to its control word. -/
theorem encodeCw_operandsOf {op : Op} {cw : Word} (imm : Word) (h : cw &&& op.mask = op.pattern) :
    encodeCw (operandsOf op cw imm) = cw := by
  have hcw : controlWord op (cwRd cw) (cwRa cw) (cwRb cw) (cwRc cw) (cwCh cw) (cwCsr cw) = cw := by
    rw [controlWord, ← cwOp_of_and_mask h, append_fields]
  rw [← hcw] at h ⊢
  exact encodeCw_operandsOf_controlWord imm h

theorem encodeImm_operandsOf {op : Op} {imm : Word} (cw : Word) (h : op.usesImm = true ∨ imm = 0) :
    encodeImm (operandsOf op cw imm) = imm := by
  cases hop : op.usesImm with
  | true =>
    cases op with
    | ldi | setp => rfl
    | _ => cases hop
  | false =>
    rw [encodeImm_of_not_usesImm (by rwa [op_operandsOf])]
    exact (h.resolve_left (by simp [hop])).symm

theorem decode_encode (i : Instr) : decode (encode i) = .ok i := by
  refine decode_eq_ok_iff.mpr ⟨i.op, ?_, ?_, ?_⟩
  · rw [packetCw_encode, encodeCw_and_mask]
  · rw [packetImm_encode]
    exact (unusedBitSet_eq_false_iff.mp (unusedBitSet_encode i)).2
  · rw [packetCw_encode, packetImm_encode, operandsOf_encode]

theorem encode_of_decode {pkt : Packet} {i : Instr} (h : decode pkt = .ok i) : encode i = pkt := by
  obtain ⟨op, hmask, himm, rfl⟩ := decode_eq_ok_iff.mp h
  rw [encode, encodeCw_operandsOf _ hmask, encodeImm_operandsOf _ himm]
  exact packetCw_append_packetImm pkt

/-- The command map (30_encoding.md R108): the mask of a row selects its packets. -/
theorem decodes_to_row_iff (pkt : Packet) (op : Op) :
    (∃ i, decode pkt = .ok i ∧ i.op = op) ↔
      packetCw pkt &&& op.mask = op.pattern ∧ (op.usesImm = true ∨ packetImm pkt = 0) := by
  constructor
  · rintro ⟨i, hdecode, rfl⟩
    obtain ⟨op, hmask, himm, rfl⟩ := decode_eq_ok_iff.mp hdecode
    rw [op_operandsOf]
    exact ⟨hmask, himm⟩
  · rintro ⟨hmask, himm⟩
    exact ⟨_, decode_eq_ok_iff.mpr ⟨op, hmask, himm, rfl⟩, op_operandsOf ..⟩

theorem Op.usesImm_iff (op : Op) : op.usesImm = true ↔ op = .ldi ∨ op = .setp := by cases op <;> decide

end Sys2Proof
end

/-! ## The statements about the encoding -/

section
open Sys2Proof Sys2Proof.Machine

/-- Settles O2: a command's fields lie outside its row's mask, and each is read back from where it was put. -/
theorem decodeEncode : Obligations.DecodeEncode := decode_encode

/-- Settles O3: a packet that passes the mask of its row has nothing but the fields of the command. -/
theorem encodeDecode : Obligations.EncodeDecode := fun _ _ => encode_of_decode

/-- Settles O4: the rows of the table are the patterns and masks the decoder tests. -/
theorem commandMapSelects : Obligations.CommandMapSelects := by
  intro pkt
  have hrow {op : Op} {pattern mask : Word} (hpattern : pattern = op.pattern) (hmask : mask = op.mask) :
      (∃ i, decode pkt = .ok i ∧ i.op = op) ↔
        packetCw pkt &&& mask = pattern ∧ (op = .ldi ∨ op = .setp ∨ packetImm pkt = 0) := by
    rw [decodes_to_row_iff, hpattern, hmask, Op.usesImm_iff, or_assoc]
  repeat refine List.forall_mem_cons.mpr ⟨hrow rfl rfl, ?_⟩
  exact List.forall_mem_nil _

/-- Settles O1: each packet is the encoding of the command it stands for. -/
theorem decodesWorkedEncodings : Obligations.DecodesWorkedEncodings :=
  ⟨decode_encode (.pop 1 2 0 .linear 0), decode_encode (.ldi 3 0x3F000000), decode_encode (.setp 1 0x3E4CCCCD),
    decode_encode (.prepare 0 1 2 1), decode_encode (.csrw 0x22 4), decode_encode (.chor 0 1 2 1), decode_encode .nop⟩

end

section
/-! More of the binary32 layer (00_scope.md R8, R12 to R15): the sign operations field by field, a number is its sign and
its magnitude, and what a rounded word is. -/

namespace Sys2Proof.Machine

/-! ## The fields as slices, and the sign operations (R15) -/

theorem f32Exp_eq_extract (a : Word) : f32Exp a = (a.extractLsb' 23 8).toNat := by
  rw [BitVec.extractLsb'_toNat, Nat.shiftRight_eq_div_pow, f32Exp]

theorem f32Frac_eq_extract (a : Word) : f32Frac a = (a.extractLsb' 0 23).toNat := by
  rw [BitVec.extractLsb'_toNat, Nat.shiftRight_zero, f32Frac]

@[simp] theorem f32Neg_fneg (a : Word) : f32Neg (fneg a) = !f32Neg a := by simp [f32Neg, fneg]

@[simp] theorem f32Exp_fneg (a : Word) : f32Exp (fneg a) = f32Exp a := by
  simp only [f32Exp_eq_extract, fneg, BitVec.extractLsb'_xor]
  exact congrArg BitVec.toNat BitVec.xor_zero

@[simp] theorem f32Frac_fneg (a : Word) : f32Frac (fneg a) = f32Frac a := by
  simp only [f32Frac_eq_extract, fneg, BitVec.extractLsb'_xor]
  exact congrArg BitVec.toNat BitVec.xor_zero

@[simp] theorem f32Neg_fabs (a : Word) : f32Neg (fabs a) = false := by simp [f32Neg, fabs]

@[simp] theorem f32Exp_fabs (a : Word) : f32Exp (fabs a) = f32Exp a := by
  have hmask : a.extractLsb' 23 8 &&& 0xFF = a.extractLsb' 23 8 := BitVec.and_allOnes
  simp only [f32Exp_eq_extract, fabs, BitVec.extractLsb'_and]
  exact congrArg BitVec.toNat hmask

@[simp] theorem f32Frac_fabs (a : Word) : f32Frac (fabs a) = f32Frac a := by
  have hmask : a.extractLsb' 0 23 &&& 0x7FFFFF = a.extractLsb' 0 23 := BitVec.and_allOnes
  simp only [f32Frac_eq_extract, fabs, BitVec.extractLsb'_and]
  exact congrArg BitVec.toNat hmask

/-- Magnitude and class depend on the exponent and fraction fields only. -/
theorem magnitude_congr {a b : Word} (hexp : f32Exp a = f32Exp b) (hfrac : f32Frac a = f32Frac b) :
    f32Mag a = f32Mag b ∧ isNaN a = isNaN b ∧ isInf a = isInf b ∧ isFinite a = isFinite b ∧ isZero a = isZero b := by
  simp [f32Mag, isNaN, isInf, isFinite, isZero, hexp, hfrac]

theorem magnitude_fneg (a : Word) :
    f32Mag (fneg a) = f32Mag a ∧ isNaN (fneg a) = isNaN a ∧ isInf (fneg a) = isInf a ∧
      isFinite (fneg a) = isFinite a ∧ isZero (fneg a) = isZero a :=
  magnitude_congr (f32Exp_fneg a) (f32Frac_fneg a)

theorem magnitude_fabs (a : Word) :
    f32Mag (fabs a) = f32Mag a ∧ isNaN (fabs a) = isNaN a ∧ isInf (fabs a) = isInf a ∧
      isFinite (fabs a) = isFinite a ∧ isZero (fabs a) = isZero a :=
  magnitude_congr (f32Exp_fabs a) (f32Frac_fabs a)

@[simp] theorem f32Mag_fneg (a : Word) : f32Mag (fneg a) = f32Mag a := (magnitude_fneg a).1
@[simp] theorem isNaN_fneg (a : Word) : isNaN (fneg a) = isNaN a := (magnitude_fneg a).2.1
@[simp] theorem isInf_fneg (a : Word) : isInf (fneg a) = isInf a := (magnitude_fneg a).2.2.1
@[simp] theorem isFinite_fneg (a : Word) : isFinite (fneg a) = isFinite a := (magnitude_fneg a).2.2.2.1
@[simp] theorem isZero_fneg (a : Word) : isZero (fneg a) = isZero a := (magnitude_fneg a).2.2.2.2
@[simp] theorem f32Mag_fabs (a : Word) : f32Mag (fabs a) = f32Mag a := (magnitude_fabs a).1
@[simp] theorem isNaN_fabs (a : Word) : isNaN (fabs a) = isNaN a := (magnitude_fabs a).2.1
@[simp] theorem isInf_fabs (a : Word) : isInf (fabs a) = isInf a := (magnitude_fabs a).2.2.1
@[simp] theorem isFinite_fabs (a : Word) : isFinite (fabs a) = isFinite a := (magnitude_fabs a).2.2.2.1
@[simp] theorem isZero_fabs (a : Word) : isZero (fabs a) = isZero a := (magnitude_fabs a).2.2.2.2

@[simp] theorem f32Val_fneg (a : Word) : f32Val (fneg a) = -f32Val a := by
  cases h : f32Neg a <;> simp [f32Val, h]

theorem f32Val_fabs (a : Word) : f32Val (fabs a) = f32Mag a := by simp [f32Val]

@[simp] theorem fneg_fneg (a : Word) : fneg (fneg a) = a := by
  rw [fneg, fneg, BitVec.xor_assoc, BitVec.xor_self, BitVec.xor_zero]

/-- The classes cover the words: what is no NaN is finite or an infinity. -/
theorem isFinite_or_isInf {a : Word} (h : isNaN a = false) : isFinite a = true ∨ isInf a = true := by
  simp only [isNaN, isFinite, isInf] at *
  grind

theorem isZero_iff {a : Word} : isZero a = true ↔ f32Mag a = 0 := by simp [isZero]

theorem isFinite_of_isZero {a : Word} (h : isZero a = true) : isFinite a = true := by
  rw [isZero_iff, f32Mag] at h
  rw [isFinite_iff]
  split at h
  · omega
  · have := Nat.two_pow_pos (f32Exp a - 1)
    simp at h

/-! ## A word is its sign and its low 31 bits -/

theorem toNat_mod_eq (a : Word) : a.toNat % 2 ^ 31 = f32Exp a * 2 ^ 23 + f32Frac a := by
  have := a.isLt
  rw [f32Exp, f32Frac]
  omega

theorem f32Pack_self (a : Word) : f32Pack (f32Neg a) (a.toNat % 2 ^ 31) = a := by
  have hlt := a.isLt
  apply BitVec.eq_of_toNat_eq
  rw [toNat_f32Pack _ (Nat.mod_lt _ (by decide)), f32Neg_eq_decide]
  split
  next h => simp_all; omega
  next h => simp_all

/-- An infinity is determined by its sign. -/
theorem eq_f32Inf_of_isInf {a : Word} (h : isInf a = true) : a = f32Inf (f32Neg a) := by
  obtain ⟨hexp, hfrac⟩ := isInf_iff.mp h
  conv_lhs => rw [← f32Pack_self a, toNat_mod_eq, hexp, hfrac]
  rfl

theorem f32Inf_fields (neg : Bool) : isInf (f32Inf neg) = true ∧ f32Neg (f32Inf neg) = neg := by
  cases neg <;> decide

/-! ## What a rounded word is (R12) -/

theorem roundMag_le (n d : Nat) : roundMag n d ≤ 0x7F800000 := min_le_right _ _

theorem roundMag_lt (n d : Nat) : roundMag n d < 2 ^ 31 := (roundMag_le n d).trans_lt (by decide)

@[simp] theorem f32Neg_fround (neg : Bool) (n d : Nat) : f32Neg (fround neg n d) = neg :=
  f32Neg_f32Pack neg (roundMag_lt n d)

/-- Rounding gives a number, never a NaN. -/
@[simp] theorem isNaN_fround (neg : Bool) (n d : Nat) : isNaN (fround neg n d) = false := by
  have hle := roundMag_le n d
  simp only [isNaN, fround, f32Exp_f32Pack neg (roundMag_lt n d), f32Frac_f32Pack neg (roundMag_lt n d)]
  refine Bool.eq_false_iff.mpr fun h => ?_
  simp only [Bool.and_eq_true, beq_iff_eq, bne_iff_ne] at h
  omega

/-- The bits of a number are those its magnitude rounds to: the magnitude has the exponent field's unit in the last
place. -/
theorem roundMag_f32Mag {a : Word} (h : isNaN a = false) : roundMag (f32Mag a) 1 = a.toNat % 2 ^ 31 := by
  have hfrac := f32Frac_lt a
  have hexp := f32Exp_lt a
  have hnum : f32Exp a = 255 → f32Frac a = 0 := by simpa [isNaN] using h
  rw [toNat_mod_eq, f32Mag]
  by_cases hsub : f32Exp a = 0
  · have hlog : (f32Frac a).log2 - 23 = 0 := by
      rcases eq_or_ne (f32Frac a) 0 with h0 | h0
      · simp [h0]
      · have := (Nat.log2_lt h0).mpr hfrac
        omega
    have hquot := divNearestEven_mul (f32Frac a) Nat.one_pos
    rw [Nat.mul_one] at hquot
    rw [if_pos hsub, roundMag, Nat.div_one, hlog]
    simp only [hsub, Nat.pow_zero, Nat.mul_one, hquot]
    omega
  · have hlog : ((2 ^ 23 + f32Frac a) * 2 ^ (f32Exp a - 1)).log2 = 23 + (f32Exp a - 1) := by
      rw [Nat.log2_eq_iff (by positivity), show 23 + (f32Exp a - 1) + 1 = 24 + (f32Exp a - 1) by omega, Nat.pow_add,
        Nat.pow_add 2 24]
      exact ⟨Nat.mul_le_mul_right _ (by omega), Nat.mul_lt_mul_of_pos_right (by omega) (Nat.two_pow_pos _)⟩
    rw [if_neg hsub, roundMag, Nat.div_one, hlog]
    simp only [Nat.add_sub_cancel_left, Nat.one_mul, divNearestEven_mul _ (Nat.two_pow_pos _)]
    omega

/-- Rounding a number's own magnitude gives the number back. -/
theorem fround_f32Mag {a : Word} (h : isNaN a = false) : fround (f32Neg a) (f32Mag a) 1 = a := by
  rw [fround, roundMag_f32Mag h, f32Pack_self]

/-- A number is its sign and its magnitude. -/
theorem eq_of_f32Mag_eq {a b : Word} (ha : isNaN a = false) (hb : isNaN b = false) (hneg : f32Neg a = f32Neg b)
    (hmag : f32Mag a = f32Mag b) : a = b := by
  rw [← fround_f32Mag ha, ← fround_f32Mag hb, hneg, hmag]

theorem divNearestEven_mul_right (n d : Nat) {k : Nat} (hk : 0 < k) :
    divNearestEven (n * k) (d * k) = divNearestEven n d := by
  simp only [divNearestEven, Nat.mul_mod_mul_right, Nat.mul_div_mul_right _ _ hk, ← Nat.mul_assoc,
    Nat.mul_lt_mul_right hk]

/-- A fraction may be cancelled before it is rounded. -/
theorem fround_mul_right (neg : Bool) (n d : Nat) {k : Nat} (hk : 0 < k) :
    fround neg (n * k) (d * k) = fround neg n d := by
  simp only [fround, roundMag, Nat.mul_div_mul_right _ _ hk, Nat.mul_right_comm d k,
    divNearestEven_mul_right _ _ hk]

end Sys2Proof.Machine
end

section
/-! All a command can do (40_system_datapath.md R131), said once: it is a sequence of updates, each of one part of the state.
What a command leaves alone, and what it keeps true, then holds when each kind of update does so. -/

namespace Sys2Proof.Machine

/-! ## The updates -/

/-- The oscillators an update of `LFO[l]` can leave (42_oscillator.md R181 to R184). -/
inductive OscillatorUpdate (u : State) (l : Chan) : Lfo → Prop
  | frequency (v : Word) : OscillatorUpdate u l { lfo u l with freq := frequencyFor (lfo u l).freq v }
  | waveform (w : BitVec 2) (hw : waveExists u.cfg w = true) : OscillatorUpdate u l { lfo u l with wave := w }
  | cleared : OscillatorUpdate u l { lfo u l with phase := fZero }
  | advanced (hprepared : prepared u = true)
      (hfinite : u.cfg.openPoints = .stop → isFinite (advancedPhase u l) = true) :
      OscillatorUpdate u l { lfo u l with phase := wrappedPhase u l }

/-- The geometry a PREPARE accepts (40_system_datapath.md R132, R133). -/
structure GeometryAccepted (cfg : Config) (sr blk : Word) (nch : Chan) (n : Nat) : Prop where
  sr_finite : isFinite sr = true
  sr_positive : fgt sr fZero = true
  blk_pos : blk ≠ 0
  nch_pos : nch ≠ 0
  nch_le : nch.toNat ≤ cfg.nCh
  margin_le : cfg.capMargin ≤ n
  le_capMax : n ≤ cfg.capMax

/-- One update of the state `u` while command `i` runs, started at `s`. -/
inductive Update (i : Instr) (s u : State) : State → Prop
  | outputs (e : Events) (h : e.notify = u.events.notify) : Update i s u { u with events := e }
  | transfer (x : Stream) (si : List StreamByte) (room : Nat) :
      Update i s u { u with ports := { u.ports with stream := x, si := si, soRoom := room } }
  | counters (m n : Nat) : Update i s u { u with draws := m, unspecs := n }
  | suppressed : Update i s u (setStatus (statusSuppressed u.csr.status) u)
  | released (h : i.op = .release) : Update i s u (setStatus (statusReleased u.csr.status) u)
  | rejected (h : i.op = .prepare) : Update i s u (prepareReject u)
  | prepared {sr blk : Word} {nch : Chan} {n : Nat} (h : i.op = .prepare) (hok : GeometryAccepted u.cfg sr blk nch n) :
      Update i s u (prepareAccept sr blk nch n u)
  | result {rd : Reg} (h : destOf i = some rd) (v : Word) : Update i s u (setReg rd v u)
  | setter {p : ParamIdx} (h : i.op = .setp ∨ i.op = .dec) (hp : paramExists u.cfg p = true) (v : Word) :
      Update i s u (setpEffect p v u)
  | csrWritten (h : i.op = .csrw ∨ i.op = .thr) (r : Csr) (v : Word) : Update i s u (csrWrite r v u)
  | oscillator {l : Chan} {o : Lfo} (h : OscillatorUpdate u l o) : Update i s u (setLfo l o u)
  | stored {c : Chan} (h : storeChannel i = some c) (v : Word) :
      Update i s u { u with mem := writeWord u.mem (storeAddr s c) v }
  | advanced {c : Chan} (h : advances i = some c) : Update i s u (advance c u)
  | slot (c : Chan) (t : Slot) (v : Word) : Update i s u (setApz c t v u)

/-- The state `t` is left by updates of command `i`, started at `s`. -/
def Updates (i : Instr) (s t : State) : Prop := Relation.ReflTransGen (Update i s) s t

/-- What holds at the start and is kept by every update holds in the end. -/
theorem Updates.induct {i : Instr} {s t : State} (h : Updates i s t) {P : State → Prop} (hs : P s)
    (hstep : ∀ u v, Update i s u v → P u → P v) : P t := by
  induction h with
  | refl => exact hs
  | tail _ huv ih => exact hstep _ _ huv ih

/-! ## The shared operations are updates -/

section
variable {i : Instr} {s u v : State}

theorem Updates.refl : Updates i s s := Relation.ReflTransGen.refl

theorem Updates.step (h : Updates i s u) (huv : Update i s u v) : Updates i s v := Relation.ReflTransGen.tail h huv

theorem Updates.respond (h : Updates i s u) (w : Word) : Updates i s (respond w u) := h.step (.outputs _ rfl)

theorem Updates.writeResult (h : Updates i s u) {rd : Reg} (hrd : destOf i = some rd) (w : Word) :
    Updates i s (writeResult rd w u) := (h.step (.result hrd w)).respond w

theorem Updates.setStream (h : Updates i s u) (x : Stream) : Updates i s (setStream x u) := h.step (.transfer x _ _)

theorem Updates.emitSo (h : Updates i s u) (bs : List StreamByte) : Updates i s (emitSo bs u) :=
  h.step (.outputs _ rfl)

theorem Updates.emitFwd (h : Updates i s u) (k : Chan) (w : Word) : Updates i s (emitFwd k w u) :=
  h.step (.outputs _ rfl)

theorem Updates.advance (h : Updates i s u) {c : Chan} (hc : advances i = some c) : Updates i s (advance c u) :=
  h.step (.advanced hc)

theorem Updates.takeRoom (h : Updates i s u) (n : Nat) : Updates i s (takeRoom n u) := h.step (.transfer _ _ _)

theorem Updates.setSi (h : Updates i s u) (bs : List StreamByte) : Updates i s (setSi bs u) :=
  h.step (.transfer _ bs _)

theorem Updates.takeUnspec (h : Updates i s u) : Updates i s (takeUnspec u) := h.step (.counters _ _)

theorem Updates.takeDraws (h : Updates i s u) (n : Nat) : Updates i s (takeDraws n u) := h.step (.counters _ _)

theorem Updates.storeSample (h : Updates i s u) {c : Chan} (hc : storeChannel i = some c)
    (hw : (dline u c).w = (dline s c).w) (w : Word) : Updates i s (storeSample c w u) := by
  have haddr : storeAddr s c = storeAddr u c := by rw [storeAddr, storeAddr, hw]
  have hstored := h.step (.stored hc w)
  rwa [haddr] at hstored

theorem updates_suppress : Updates i s (suppress s) := (Updates.refl.step .suppressed).respond 0

/-- A tap read changes no write index (43_delay_line.md R205). -/
theorem dline_w_tapRead {c k : Chan} {d : Word} {mode : Interp} {t : Slot} {w : Word}
    (h : tapRead c d mode t s = .ok (w, u)) : (dline u k).w = (dline s k).w := by
  have hslot (x : State) (z : Word) : (dline (setApz c t z x) k).w = (dline x k).w := by
    rw [setApz]
    by_cases hk : k = c
    · rw [hk, dline_setDline_same]
    · rw [dline_setDline_other hk]
  obtain ⟨-, -, rfl⟩ | ⟨-, -, -, rfl⟩ := tapRead_ok h
  · cases mode with
    | allpass => exact hslot _ _
    | _ => rfl
  · cases mode with
    | allpass => exact hslot _ _
    | _ => rfl

theorem Updates.tapRead (h : Updates i s u) {c : Chan} {d : Word} {mode : Interp} {t : Slot} {w : Word}
    (hread : tapRead c d mode t u = .ok (w, v)) : Updates i s v := by
  obtain ⟨-, -, rfl⟩ | ⟨-, -, -, rfl⟩ := tapRead_ok hread
  · cases mode with
    | allpass => exact h.step (.slot c t _)
    | _ => exact h
  · cases mode with
    | allpass => exact h.takeUnspec.takeUnspec.step (.slot c t _)
    | _ => exact h.takeUnspec

theorem Updates.chorSum (h : Updates i s u) {c : Chan} {l w : Word} (hsum : chorSum c l u = .ok (w, v)) :
    Updates i s v := by
  unfold Machine.chorSum chorTap at hsum
  split at hsum
  next => cases hsum
  next h1 =>
    have hfirst := h.tapRead h1
    split at hsum
    next => cases hsum; exact hfirst
    next =>
      split at hsum
      next => cases hsum
      next h2 =>
        have hsecond := hfirst.tapRead h2
        split at hsum
        next => cases hsum; exact hsecond
        next =>
          split at hsum
          next => cases hsum
          next h3 => cases hsum; exact hsecond.tapRead h3

theorem updates_encContinue (rest : List StreamByte) : Updates i s (encContinue rest s) := by
  unfold encContinue
  split
  · exact (((Updates.refl.emitSo rest).takeRoom _).setStream _).respond _
  · exact ((Updates.refl.emitSo _).takeRoom _).setStream _

/-- A group DEC completes is of a parameter that exists (46_state_codec.md R283, R284). -/
theorem paramExists_of_decScan {cfg : Config} {p : ParamIdx} {w : Word} (n : Nat) :
    ∀ (bs : List StreamByte) (pending : List Byte), (decScan cfg n pending bs).group = some (p, w) →
      paramExists cfg p = true
  | [], _, h => by cases h
  | b :: rest, pending, h => by
    unfold decScan at h
    split at h
    next hn =>
      split at h
      next =>
        cases h
        exact decide_eq_true (lt_of_le_of_lt (Nat.mod_le _ _) hn)
      next =>
        split at h
        · cases h
        · exact paramExists_of_decScan n rest _ h
    next =>
      split at h
      · cases h
      · exact paramExists_of_decScan n rest _ h

theorem updates_decContinue (hi : i.op = .dec) (n : Nat) (pending : List Byte) :
    Updates i s (decContinue n pending s) := by
  have hgroup : Updates i s (applyGroup (decScan s.cfg n pending s.ports.si).group
      (setSi (decScan s.cfg n pending s.ports.si).rest s)) := by
    have hsi : Updates i s (setSi (decScan s.cfg n pending s.ports.si).rest s) := Updates.refl.setSi _
    unfold applyGroup
    split
    next p w hg =>
      have hp : paramExists (setSi (decScan s.cfg n pending s.ports.si).rest s).cfg p = true :=
        paramExists_of_decScan n _ _ hg
      exact hsi.step (.setter (.inr hi) hp w)
    next => exact hsi
  dsimp only [decContinue]
  split
  · exact (hgroup.setStream _).respond _
  · exact hgroup.setStream _

theorem updates_paramResult {rd : Reg} (hrd : destOf i = some rd) (w : Word) : Updates i s (paramResult rd w s) := by
  unfold paramResult
  split
  · exact Updates.refl.writeResult hrd w
  · exact Updates.refl.respond w

end

/-! ## PREPARE accepts a geometry in range (40_system_datapath.md R133) -/

/-- What is no NaN and not at most zero is above zero. -/
theorem fgt_zero_of_not_fle {a : Word} (hnan : isNaN a = false) (h : fle a fZero = false) : fgt a fZero = true := by
  rw [fgt]
  by_contra hflt
  rw [Bool.not_eq_true, flt_eq_false_iff (by decide) hnan] at hflt
  exact absurd hflt (ne_true_of_eq_false h)

theorem isFinite_of_number {a : Word} (hnan : isNaN a = false) (hinf : isInf a = false) : isFinite a = true :=
  (isFinite_or_isInf hnan).resolve_right (ne_true_of_eq_false hinf)

theorem geometryAccepted_of_not_rejected {s : State} {sr blk : Word} {nch : Chan} {pd : ParamIdx}
    (h : prepareRejected s sr blk nch pd = false) :
    GeometryAccepted s.cfg sr blk nch (capacityFor s (nominalDelay s sr pd)) := by
  simp only [prepareRejected, Bool.or_eq_false_iff, decide_eq_false_iff_not, beq_eq_false_iff_ne, Nat.not_lt] at h
  obtain ⟨⟨⟨⟨⟨⟨hnan, hinf⟩, hpos⟩, hblk⟩, hnch, hnchLe⟩, -⟩, hcap⟩ := h
  exact ⟨isFinite_of_number hnan hinf, fgt_zero_of_not_fle hnan hpos, hblk, hnch, hnchLe, Nat.le_add_left _ _, hcap⟩

/-! ## Every command is a sequence of updates -/

section
variable {i : Instr} {s t u : State}

/-- A command that answers a next state does so by updates if its effect does: suppression is two of them. -/
theorem updates_command {e : Host.Outcome State Fault Refusal} (h : command i s e = .next t)
    (he : illegality i s = none → e = .next t → Updates i s t) : Updates i s t := by
  obtain ⟨-, rfl⟩ | ⟨hlegal, hnext⟩ := command_next h
  · exact updates_suppress
  · exact he hlegal hnext

/-- `updates_command` for an effect that always answers a next state. -/
theorem updates_command_next (h : command i s (.next u) = .next t) (hu : illegality i s = none → Updates i s u) :
    Updates i s t :=
  updates_command h fun hlegal e => Host.Outcome.next.inj e ▸ hu hlegal

theorem updates_csrrEffect {rd : Reg} (hrd : destOf i = some rd) (a : CsrAddr) : Updates i s (csrrEffect rd a s) := by
  unfold csrrEffect
  split
  · exact Updates.refl.writeResult hrd _
  · exact updates_suppress

theorem updates_csrwEffect (hi : i.op = .csrw) (a : CsrAddr) (v : Word) : Updates i s (csrwEffect a v s) := by
  unfold csrwEffect
  split
  · exact (Updates.refl.step (.csrWritten (.inl hi) _ v)).respond 0
  · exact updates_suppress

theorem updates_prepareEffect (hi : i.op = .prepare) (sr blk : Word) (nch : Chan) (pd : ParamIdx) :
    Updates i s (prepareEffect sr blk nch pd s) := by
  dsimp only [prepareEffect]
  split
  · exact (Updates.refl.step (.rejected hi)).respond _
  next h =>
    have hok := geometryAccepted_of_not_rejected (Bool.eq_false_of_not_eq_true h)
    exact (Updates.refl.step (.prepared hi hok)).respond _

theorem updates_popEffect {rd : Reg} (hrd : destOf i = some rd) {c : Chan} {d : Word} {mode : Interp} {k : Slot}
    (h : popEffect rd (tapRead c d mode k s) = .next t) : Updates i s t := by
  unfold popEffect at h
  split at h
  next => cases h
  next hread => cases h; exact (Updates.refl.tapRead hread).writeResult hrd _

theorem updates_dlyEffect {rd : Reg} {c : Chan} (hrd : destOf i = some rd) (hc : storeChannel i = some c)
    (ha : advances i = some c) {dry : Word} (h : dlyEffect rd c dry s = .next t) : Updates i s t := by
  unfold dlyEffect at h
  split at h
  next => cases h
  next t u hread =>
    cases h
    have htap := (Updates.refl.storeSample hc rfl dry).tapRead hread
    have hw : (dline u c).w = (dline s c).w := by rw [dline_w_tapRead hread, dline_storeSample]
    exact ((htap.storeSample hc hw _).advance ha).writeResult hrd _

theorem updates_chorEffect {rd : Reg} {c : Chan} (hrd : destOf i = some rd) (hc : storeChannel i = some c)
    (ha : advances i = some c) {dry l : Word} (h : chorEffect rd c dry l s = .next t) : Updates i s t := by
  unfold chorEffect at h
  split at h
  next => cases h
  next hsum =>
    cases h
    exact (((Updates.refl.storeSample hc rfl dry).chorSum hsum).advance ha).writeResult hrd _

theorem updates_shapeEffect {rd : Reg} (hrd : destOf i = some rd) {x : Word} (h : shapeEffect rd x s = .next t) :
    Updates i s t := by
  unfold shapeEffect at h
  split at h
  next => cases h
  next => cases h; exact (Updates.refl.takeDraws _).writeResult hrd _

/-- What a legal command may rely on besides its port. -/
theorem wf_of_legal (h : illegality i s = none) : i.wf s.cfg = true := (illegality_eq_none.mp h).2.1

theorem prepared_of_legal (h : illegality i s = none) (hneeds : i.op.needsPrepared = true) : prepared s = true :=
  (illegality_eq_none.mp h).2.2.2 hneeds

theorem exec_updates (h : exec i s = .next t) : Updates i s t := by
  cases i with
  | nop => exact updates_command_next h fun _ => Updates.refl.respond 0
  | prepare ra rb nch pd => exact updates_command_next h fun _ => updates_prepareEffect rfl _ _ nch pd
  | release => exact updates_command_next h fun _ => (Updates.refl.step (.released rfl)).respond 0
  | ldi rd imm => exact updates_command_next h fun _ => Updates.refl.writeResult rfl imm
  | mov rd ra => exact updates_command_next h fun _ => Updates.refl.writeResult rfl _
  | rdr ra => exact updates_command_next h fun _ => Updates.refl.respond _
  | csrr rd a => exact updates_command_next h fun _ => updates_csrrEffect rfl a
  | csrw a ra => exact updates_command_next h fun _ => updates_csrwEffect rfl a _
  | fadd rd ra rb | fsub rd ra rb | fmul rd ra rb | fdiv rd ra rb | trem rd ra rb =>
    exact updates_command_next h fun _ => Updates.refl.writeResult rfl _
  | getp rd p | pmin rd p | pmax rd p | pdef rd p =>
    exact updates_command_next h fun _ => updates_paramResult rfl _
  | setp p imm =>
    exact updates_command_next h fun hlegal =>
      (Updates.refl.step (.setter (.inl rfl) (wf_of_legal hlegal) imm)).respond _
  | enc => exact updates_command_next h fun _ => updates_encContinue _
  | dec => exact updates_command_next h fun _ => updates_decContinue rfl 0 []
  | fwd k p => exact updates_command_next h fun _ => (Updates.refl.emitFwd k _).respond 0
  | setf l ra => exact updates_command_next h fun _ => (Updates.refl.step (.oscillator (.frequency _))).respond 0
  | lrst l => exact updates_command_next h fun _ => (Updates.refl.step (.oscillator .cleared)).respond 0
  | setw l w =>
    refine updates_command_next h fun hlegal => (Updates.refl.step (.oscillator (.waveform w ?_))).respond 0
    exact (Bool.and_eq_true_iff.mp (wf_of_legal hlegal)).2
  | lnext rd l =>
    refine updates_command h fun hlegal e => ?_
    split at e
    next => cases e
    next hopen =>
      cases e
      refine (Updates.refl.step (.oscillator (.advanced (prepared_of_legal hlegal rfl) fun hstop => ?_))).writeResult rfl _
      simpa [hstop] using hopen
  | dlw c ra => exact updates_command_next h fun _ => (Updates.refl.storeSample rfl rfl _).respond 0
  | dladv c => exact updates_command_next h fun _ => (Updates.refl.advance rfl).respond 0
  | push c ra =>
    exact updates_command_next h fun _ => ((Updates.refl.storeSample rfl rfl _).advance rfl).respond 0
  | dlfb c ra rb rc =>
    exact updates_command_next h fun _ => ((Updates.refl.storeSample rfl rfl _).advance rfl).respond 0
  | pop rd ra c interp tap => exact updates_command h fun _ => updates_popEffect rfl
  | dly rd ra c => exact updates_command h fun _ => updates_dlyEffect rfl rfl rfl
  | chor rd ra rb c => exact updates_command h fun _ => updates_chorEffect rfl rfl rfl
  | shape rd ra | dist rd ra => exact updates_command h fun _ => updates_shapeEffect rfl
  | thr b ra => exact updates_command_next h fun _ => (Updates.refl.step (.csrWritten (.inr rfl) _ _)).respond 0

end

/-! ## Every step -/

/-- `u` is `s` with a port granted its move and its packet taken: nothing else differs (20_memory.md R82). -/
def Served (s u : State) : Prop := u = { s with ports := u.ports, grants := u.grants }

/-- The state an action starts from is the one before the step, with the port served. -/
def ActionServes (s : State) : Action → Prop
  | .reset => s.ports.rst = true
  | .idle => True
  | .command _ u | .encGoesOn _ u | .decGoesOn _ _ u => Served s u

theorem served_grant (p : Port) (s : State) : Served s (grant p s) := by
  unfold grant
  split <;> rfl

theorem nextAction_serves (s : State) : ActionServes s (nextAction s) := by
  unfold nextAction
  split
  · assumption
  · split
    · trivial
    · have hgrant := served_grant .a s
      unfold takeA
      split
      · trivial
      · rw [Served] at hgrant
        show Served _ _
        rw [Served, hgrant]
    · have hgrant := served_grant .c s
      unfold takeC
      split
      · exact hgrant
      · exact hgrant
      · split
        · trivial
        · rw [Served] at hgrant
          show Served _ _
          rw [Served, hgrant]

/-- All a step can do: reset, nothing, or the updates of one command from the state with its port served. -/
theorem step_cases {s t : State} (h : step s = .next t) :
    (s.ports.rst = true ∧ t = takeReset s) ∨ t = s ∨ ∃ i u, Served s u ∧ Updates i u t := by
  have hserves := nextAction_serves s
  unfold step at h
  generalize nextAction s = act at h hserves
  cases act with
  | reset => exact .inl ⟨hserves, (Host.Outcome.next.inj h).symm⟩
  | idle => exact .inr (.inl (Host.Outcome.next.inj h).symm)
  | command pkt u =>
    refine .inr (.inr ?_)
    dsimp only at h
    split at h
    next i _ => exact ⟨i, u, hserves, exec_updates h⟩
    next => cases h; exact ⟨.nop, u, hserves, updates_suppress⟩
  | encGoesOn rest u => cases h; exact .inr (.inr ⟨.enc, u, hserves, updates_encContinue rest⟩)
  | decGoesOn n pending u => cases h; exact .inr (.inr ⟨.dec, u, hserves, updates_decContinue rfl n pending⟩)

end Sys2Proof.Machine
end

section
/-! What every command leaves unchanged, each read off the updates (`exec_updates`). -/

namespace Sys2Proof.Machine

/-! ## What single updates leave unchanged -/

/-- The setter changes the parameters and the histories only (41_parameter_store.md R165). -/
theorem setpEffect_frame (p : ParamIdx) (v : Word) (s : State) :
    setpEffect p v s = { s with cur := (setpEffect p v s).cur, events := (setpEffect p v s).events } := by
  cases hv : isNaN v with
  | true => rw [setpEffect_of_nan hv]
  | false => rw [setpEffect_of_number hv]; rfl

theorem dline_w_setApz (c k : Chan) (t : Slot) (z : Word) (s : State) :
    (dline (setApz c t z s) k).w = (dline s k).w := by
  rw [setApz]
  by_cases hk : k = c
  · rw [hk, dline_setDline_same]
  · rw [dline_setDline_other hk]

/-- No write of a control register reaches the four a PREPARE sets (10_state.md R38). -/
theorem csrStore_geometry (x : Csrs) (r : Csr) (v : Word) :
    (csrStore x r v).sr = x.sr ∧ (csrStore x r v).blk = x.blk ∧ (csrStore x r v).nch = x.nch ∧
      (csrStore x r v).cap = x.cap := by
  cases r <;> exact ⟨rfl, rfl, rfl, rfl⟩

theorem op_eq_prepare_iff (i : Instr) : i.op = .prepare ↔ isPrepare i = true := by
  cases i <;> simp [Instr.op, isPrepare]

theorem storeChannel_prepare {i : Instr} (h : i.op = .prepare) : storeChannel i = none := by
  cases i with
  | prepare _ _ _ _ => rfl
  | _ => cases h

/-! ## What a sequence of updates leaves unchanged -/

section
variable {i : Instr} {s t : State}

theorem Updates.frame (h : Updates i s t) :
    t.cfg = s.cfg ∧ t.ports.aCmds = s.ports.aCmds ∧ t.ports.cCmds = s.ports.cCmds ∧ t.ports.rst = s.ports.rst ∧
      t.ports.port = s.ports.port := by
  induction h with
  | refl => exact ⟨rfl, rfl, rfl, rfl, rfl⟩
  | @tail u v _ huv ih =>
    cases huv with
    | setter _ _ _ => rw [setpEffect_frame]; exact ih
    | _ => exact ih

theorem Updates.reg_eq (h : Updates i s t) {r : Reg} (hr : destOf i ≠ some r) : reg t r = reg s r := by
  induction h with
  | refl => rfl
  | @tail u v _ huv ih =>
    cases huv with
    | setter _ _ _ => rw [setpEffect_frame]; exact ih
    | result hrd w =>
      rw [reg_setReg_other (fun e => hr (by rw [hrd, e]))]
      exact ih
    | _ => exact ih

theorem Updates.mem_eq (h : Updates i s t) (hstore : storeChannel i = none) (hprep : isPrepare i = false) :
    t.mem = s.mem := by
  induction h with
  | refl => rfl
  | @tail u v _ huv ih =>
    cases huv with
    | setter _ _ _ => rw [setpEffect_frame]; exact ih
    | stored hc _ => cases hstore.symm.trans hc
    | prepared hop _ => cases hprep.symm.trans ((op_eq_prepare_iff i).mp hop)
    | _ => exact ih

theorem Updates.sameOutside (h : Updates i s t) {c : Chan} (hc : storeChannel i = some c) :
    SameOutside (storeAddr s c) s.mem t.mem := by
  induction h with
  | refl => exact (fun _ _ => rfl)
  | @tail u v _ huv ih =>
    cases huv with
    | setter _ _ _ => rw [setpEffect_frame]; exact ih
    | stored hk w =>
      cases hc.symm.trans hk
      exact fun b hb => (readByte_writeWord_other u.mem hb w).trans (ih b hb)
    | prepared hop _ => cases hc.symm.trans (storeChannel_prepare hop)
    | _ => exact ih

theorem Updates.dline_w_eq (h : Updates i s t) {c : Chan} (hc : advances i ≠ some c) (hprep : isPrepare i = false) :
    (dline t c).w = (dline s c).w := by
  induction h with
  | refl => rfl
  | @tail u v _ huv ih =>
    cases huv with
    | setter _ _ _ => rw [setpEffect_frame]; exact ih
    | advanced hk =>
      rw [dline_advance_other (fun e => hc (by rw [hk, e]))]
      exact ih
    | slot k k' z => rw [dline_w_setApz]; exact ih
    | prepared hop _ => cases hprep.symm.trans ((op_eq_prepare_iff i).mp hop)
    | _ => exact ih

/-- The registers a PREPARE sets (10_state.md R38) are set by no other command. -/
theorem Updates.geometry_eq (h : Updates i s t) (hi : i.op ≠ .prepare) :
    t.csr.sr = s.csr.sr ∧ t.csr.blk = s.csr.blk ∧ t.csr.nch = s.csr.nch ∧ t.csr.cap = s.csr.cap := by
  induction h with
  | refl => exact ⟨rfl, rfl, rfl, rfl⟩
  | @tail u v _ huv ih =>
    cases huv with
    | setter _ _ _ => rw [setpEffect_frame]; exact ih
    | prepared hop _ => exact absurd hop hi
    | csrWritten _ r w =>
      obtain ⟨hsr, hblk, hnch, hcap⟩ := csrStore_geometry u.csr r (csrLegal r w)
      rw [csrWrite_csr, hsr, hblk, hnch, hcap]
      exact ih
    | _ => exact ih

/-- CTRL, MODE and the coefficients are written by CSRW and THR only (10_state.md R64). -/
theorem Updates.coefficients_eq (h : Updates i s t) (hcsrw : i.op ≠ .csrw) (hthr : i.op ≠ .thr) :
    t.csr = { s.csr with
      status := t.csr.status, sr := t.csr.sr, blk := t.csr.blk, nch := t.csr.nch, cap := t.csr.cap } := by
  induction h with
  | refl => rfl
  | @tail u v _ huv ih =>
    cases huv with
    | setter _ _ _ => rw [setpEffect_frame]; exact ih
    | csrWritten hop _ _ => exact absurd hop (not_or.mpr ⟨hcsrw, hthr⟩)
    | suppressed => rw [setStatus_csr, ih]
    | released _ => rw [setStatus_csr, ih]
    | rejected _ => rw [prepareReject_csr, ih]
    | prepared _ _ => rw [prepareAccept_csr, ih]
    | _ => exact ih

theorem statusSuppressed_flags (st : Word) :
    (statusSuppressed st).getLsbD 0 = st.getLsbD 0 ∧ (statusSuppressed st).getLsbD 2 = st.getLsbD 2 := by
  simp [statusSuppressed]

/-- PREPARED and PERR are moved by PREPARE and RELEASE only (10_state.md R36). -/
theorem Updates.flags_eq (h : Updates i s t) (hprepare : i.op ≠ .prepare) (hrelease : i.op ≠ .release) :
    prepared t = prepared s ∧ prepareError t = prepareError s := by
  induction h with
  | refl => exact ⟨rfl, rfl⟩
  | @tail u v _ huv ih =>
    cases huv with
    | setter _ _ _ => rw [setpEffect_frame]; exact ih
    | suppressed =>
      obtain ⟨h0, h2⟩ := statusSuppressed_flags u.csr.status
      exact ⟨h0.trans ih.1, h2.trans ih.2⟩
    | released hop => exact absurd hop hrelease
    | rejected hop => exact absurd hop hprepare
    | prepared hop _ => exact absurd hop hprepare
    | csrWritten _ r w =>
      rw [prepared, prepareError, csrWrite_csr, csrStore_status]
      exact ih
    | _ => exact ih

theorem Updates.notify_eq (h : Updates i s t) (hsetp : i.op ≠ .setp) (hdec : i.op ≠ .dec) :
    t.events.notify = s.events.notify := by
  induction h with
  | refl => rfl
  | @tail u v _ huv ih =>
    cases huv with
    | outputs e he => exact he.trans ih
    | setter hop _ _ => exact absurd hop (not_or.mpr ⟨hsetp, hdec⟩)
    | _ => exact ih

/-- What the updates add to the history of NOTIFY are writes of parameters that exist. -/
theorem Updates.notify_append (h : Updates i s t) :
    ∃ l, t.events.notify = s.events.notify ++ l ∧ ∀ e ∈ l, paramExists s.cfg e.p = true := by
  induction h with
  | refl => exact ⟨[], by simp, by simp⟩
  | @tail u v hsu huv ih =>
    obtain ⟨l, hl, hex⟩ := ih
    cases huv with
    | outputs e he => exact ⟨l, he.trans hl, hex⟩
    | @setter p _ hp w =>
      cases hw : isNaN w with
      | true => rw [setpEffect_of_nan hw]; exact ⟨l, hl, hex⟩
      | false =>
        rw [setpEffect_of_number hw]
        refine ⟨l ++ [{ p := p, v := clamped u p w }], by simp [hl], fun e he => ?_⟩
        rcases List.mem_append.mp he with he | he
        · exact hex e he
        · rw [List.mem_singleton.mp he, ← (Updates.frame hsu).1]
          exact hp
    | _ => exact ⟨l, hl, hex⟩

end

/-! ## PREPARE writes its registers or leaves them (10_state.md R38) -/

theorem statusPrepared_flags (st : Word) :
    (statusPrepared st).getLsbD 0 = true ∧ (statusPrepared st).getLsbD 2 = false := by
  simp [statusPrepared]

/-- A PREPARE that leaves PREPARED at 0 or PERR at 1 did not accept. -/
theorem prepareEffect_geometry {s : State} {sr blk : Word} {nch : Chan} {pd : ParamIdx}
    (h : prepared (prepareEffect sr blk nch pd s) = false ∨ prepareError (prepareEffect sr blk nch pd s) = true) :
    (prepareEffect sr blk nch pd s).csr = { s.csr with status := statusRejected s.csr.status } := by
  unfold prepareEffect at h ⊢
  split at h
  next hrejected => simp [hrejected]
  next =>
    obtain ⟨h0, h2⟩ := statusPrepared_flags s.csr.status
    rcases h with h | h
    · exact absurd (h0.symm.trans h) (by decide)
    · exact absurd (h2.symm.trans h) (by decide)

theorem exec_geometry_eq {i : Instr} {s t : State} (h : exec i s = .next t)
    (hi : i.op ≠ .prepare ∨ prepared t = false ∨ prepareError t = true) :
    t.csr.sr = s.csr.sr ∧ t.csr.blk = s.csr.blk ∧ t.csr.nch = s.csr.nch ∧ t.csr.cap = s.csr.cap := by
  by_cases hop : i.op = .prepare
  · cases i with
    | prepare ra rb nch pd =>
      obtain ⟨-, rfl⟩ | ⟨-, hnext⟩ := command_next h
      · exact ⟨rfl, rfl, rfl, rfl⟩
      · cases hnext
        rw [prepareEffect_geometry (hi.resolve_left (not_not.mpr hop))]
        exact ⟨rfl, rfl, rfl, rfl⟩
    | _ => cases hop
  · exact (exec_updates h).geometry_eq hop

/-! ## The history of NOTIFY (41_parameter_store.md R167) -/

/-- A step either keeps the parameters and their history, or stores one parameter that exists and says so. -/
theorem step_notify {s t : State} (h : step s = .next t) (hrst : s.ports.rst = false) :
    (t.events.notify = s.events.notify ∧ t.cur = s.cur) ∨
      ∃ p, p.toNat < s.cfg.nParam ∧ t.events.notify = s.events.notify ++ [{ p := p, v := param t p }] ∧
        ∀ q, q ≠ p → param t q = param s q := by
  obtain ⟨hreset, -⟩ | rfl | ⟨i, u, hserved, hupdates⟩ := step_cases h
  · exact absurd (hreset.symm.trans hrst) (by decide)
  · exact .inl ⟨rfl, rfl⟩
  obtain ⟨hreset, -⟩ | hmove := step_settings h
  · exact absurd (hreset.symm.trans hrst) (by decide)
  generalize ht : settings t = b at hmove
  cases hmove with
  | kept => exact .inl ⟨congrArg Settings.notify ht, congrArg Settings.cur ht⟩
  | kbitsWritten _ => exact .inl ⟨congrArg Settings.notify ht, congrArg Settings.cur ht⟩
  | stored p v hv =>
    refine .inr ⟨p, ?_, ?_, fun q hq => ?_⟩
    · obtain ⟨l, hl, hex⟩ := hupdates.notify_append
      rw [hserved] at hl hex
      have hone := List.append_cancel_left (hl.symm.trans (congrArg Settings.notify ht))
      exact of_decide_eq_true (hex { p := p, v := _ } (by rw [hone]; exact List.mem_singleton.mpr rfl))
    · rw [← settings_param, ht, Settings.store_param_same]
      exact congrArg Settings.notify ht
    · rw [← settings_param, ht, Settings.store_param_other _ hq, settings_param]

end Sys2Proof.Machine
end

/-! ## The statements about frames -/

section
open Sys2Proof.Machine

/-- Settles O50: each kind of update keeps what the statement names, unless the command is one that may change it. -/
theorem commandFrame : Obligations.CommandFrame := by
  intro i s t h
  have hupdates := exec_updates h
  exact ⟨fun _ => hupdates.reg_eq, fun hstore hprep a => by rw [hupdates.mem_eq hstore hprep],
    fun _ => hupdates.sameOutside, fun _ => hupdates.dline_w_eq, hupdates.frame⟩

/-- Settles O51: the updates of the control registers are those of PREPARE, RELEASE, CSRW and THR, and the ILL flag. -/
theorem controlRegisterFrame : Obligations.ControlRegisterFrame := fun _ _ _ h =>
  ⟨exec_geometry_eq h, (exec_updates h).coefficients_eq, (exec_updates h).flags_eq⟩

/-- Settles O28: the setter is the one update that notifies, and a step runs it at most once. -/
theorem notifyComesFromSetters : Obligations.NotifyComesFromSetters :=
  ⟨fun _ _ _ h => (exec_updates h).notify_eq, fun _ _ => step_notify⟩

end

section
/-! Signs and classes of arithmetic results (00_scope.md R12, R13), and why a phase stays wrapped: the increment is not
negative, so neither is the advanced phase, and its remainder lies in [0, TWO_PI) (42_oscillator.md R185). -/

namespace Sys2Proof.Machine

/-! ## Signs -/

theorem f32Val_nonneg {a : Word} (h : f32Neg a = false) : 0 ≤ f32Val a := by
  rw [f32Val_of_nonneg h]
  exact Int.natCast_nonneg _

theorem f32Neg_of_f32Val_pos {a : Word} (h : 0 < f32Val a) : f32Neg a = false := by
  refine Bool.eq_false_iff.mpr fun hneg => ?_
  rw [f32Val_of_neg hneg] at h
  omega

theorem f32Val_fZero : f32Val fZero = 0 := by decide

theorem fgt_zero_iff {a : Word} : fgt a fZero = true ↔ isNaN a = false ∧ 0 < f32Val a := by
  rw [fgt, flt_iff, f32Val_fZero]
  exact and_iff_right (by decide)

theorem fle_zero_iff {a : Word} : fle fZero a = true ↔ isNaN a = false ∧ 0 ≤ f32Val a := by
  rw [fle_iff, f32Val_fZero]
  exact and_iff_right (by decide)

theorem f32Inf_eq_f32Pack (neg : Bool) : f32Neg (f32Inf neg) = neg := (f32Inf_fields neg).2

/-- A product that is a number has the product of the signs, an overflow included. -/
theorem f32Neg_fmul {a b : Word} (h : isNaN (fmul a b) = false) : f32Neg (fmul a b) = signOf a b := by
  unfold fmul at h ⊢
  split_ifs at h ⊢
  · exact absurd h (by decide)
  · exact absurd h (by decide)
  · exact f32Inf_eq_f32Pack _
  · exact f32Neg_fround ..

/-- A quotient that is a number has the product of the signs, an overflow or a zero included. -/
theorem f32Neg_fdiv {a b : Word} (h : isNaN (fdiv a b) = false) : f32Neg (fdiv a b) = signOf a b := by
  unfold fdiv at h ⊢
  split_ifs at h ⊢
  · exact absurd h (by decide)
  · exact absurd h (by decide)
  · exact f32Inf_eq_f32Pack _
  · exact f32Neg_f32Pack _ (by decide)
  · exact absurd h (by decide)
  · exact f32Inf_eq_f32Pack _
  · exact f32Neg_fround ..

/-- Arithmetic on a NaN gives a NaN: the operands of a number are numbers. -/
theorem numbers_of_fadd {a b : Word} (h : isNaN (fadd a b) = false) : isNaN a = false ∧ isNaN b = false := by
  refine Bool.or_eq_false_iff.mp (Bool.eq_false_iff.mpr fun hnan => ?_)
  rw [fadd, if_pos hnan, isNaN_qNaN] at h
  cases h

theorem numbers_of_fdiv {a b : Word} (h : isNaN (fdiv a b) = false) : isNaN a = false ∧ isNaN b = false := by
  refine Bool.or_eq_false_iff.mp (Bool.eq_false_iff.mpr fun hnan => ?_)
  rw [fdiv, if_pos hnan, isNaN_qNaN] at h
  cases h

/-- A sum of two values that are not negative is not negative. -/
theorem fadd_nonneg {a b : Word} (h : isNaN (fadd a b) = false) (ha : 0 ≤ f32Val a) (hb : 0 ≤ f32Val b) :
    0 ≤ f32Val (fadd a b) := by
  unfold fadd at h ⊢
  split_ifs at h ⊢
  · exact absurd h (by decide)
  · exact absurd h (by decide)
  · exact ha
  · exact hb
  · cases f32Neg a && f32Neg b <;> decide
  · exact f32Val_nonneg (by rw [f32Neg_fround]; exact decide_eq_false (by omega))

/-- The remainder of a value that is not negative by TWO_PI lies in [0, TWO_PI) (00_scope.md R16). -/
theorem fmodt_twoPi_wrapped {a : Word} (hfin : isFinite a = true) (hpos : 0 ≤ f32Val a) :
    isFinite (fmodt a twoPi) = true ∧ fle fZero (fmodt a twoPi) = true ∧ flt (fmodt a twoPi) twoPi = true := by
  have hpi : isFinite twoPi = true := by decide
  obtain ⟨hval, -, hlt, hfin'⟩ := fmodtIsExact.1 a twoPi hfin hpi (by decide)
  have hnonneg : 0 ≤ f32Val (fmodt a twoPi) := by
    rw [hval, ← Int.tmod_def]
    exact Int.tmod_nonneg _ hpos
  have hnum := isNaN_of_isFinite hfin'
  have htwoPi : f32Val twoPi = f32Mag twoPi := f32Val_of_nonneg (by decide)
  refine ⟨hfin', fle_zero_iff.mpr ⟨hnum, hnonneg⟩, flt_iff.mpr ⟨hnum, isNaN_of_isFinite hpi, ?_⟩⟩
  have habs := natAbs_f32Val (fmodt a twoPi)
  omega

/-! ## The oscillators (10_state.md R53, 42_oscillator.md R185) -/

/-- A phase that is finite and in [0, TWO_PI). -/
def PhaseWrapped (ph : Word) : Prop := isFinite ph = true ∧ fle fZero ph = true ∧ flt ph twoPi = true

theorem phaseWrapped_fZero : PhaseWrapped fZero := by unfold PhaseWrapped; decide

/-- With a legal frequency and sample rate the advanced phase, where it is finite, wraps into [0, TWO_PI). -/
theorem phaseWrapped_wrappedPhase {u : State} {l : Chan} (hphase : PhaseWrapped (lfo u l).phase)
    (hfreq : f32Neg (lfo u l).freq = false) (hsr : fgt u.csr.sr fZero = true)
    (hfin : isFinite (advancedPhase u l) = true) : PhaseWrapped (wrappedPhase u l) := by
  obtain ⟨-, hpos, -⟩ := hphase
  have hnum : isNaN (advancedPhase u l) = false := isNaN_of_isFinite hfin
  have hinc : isNaN (phaseIncrement u l) = false := (numbers_of_fadd hnum).2
  have hsign : f32Neg (phaseIncrement u l) = false := by
    rw [phaseIncrement, f32Neg_fdiv hinc, signOf, f32Neg_fmul (numbers_of_fdiv hinc).1, signOf, hfreq,
      f32Neg_of_f32Val_pos (fgt_zero_iff.mp hsr).2]
    decide
  exact fmodt_twoPi_wrapped hfin (fadd_nonneg hnum (fle_zero_iff.mp hpos).2 (f32Val_nonneg hsign))

/-- SETF stores a frequency that is finite and has a clear sign bit (42_oscillator.md R181). -/
theorem frequencyFor_legal {old : Word} (hfin : isFinite old = true) (hneg : f32Neg old = false) (v : Word) :
    isFinite (frequencyFor old v) = true ∧ f32Neg (frequencyFor old v) = false := by
  unfold frequencyFor
  split_ifs with hnan hle hinf
  · exact ⟨hfin, hneg⟩
  · decide
  · decide
  · have hnum := Bool.eq_false_of_not_eq_true hnan
    have hsign := f32Neg_of_f32Val_pos (fgt_zero_iff.mp (fgt_zero_of_not_fle hnum (Bool.eq_false_of_not_eq_true hle))).2
    refine ⟨(isFinite_or_isInf hnum).resolve_right fun h => hinf ?_, hsign⟩
    rw [eq_f32Inf_of_isInf h, hsign]
    rfl

end Sys2Proof.Machine
end

section
/-! The invariants of the machine (10_state.md R36 to R38, R41, R43, R51, R53, R54): each kind of update keeps them, so every
command and every step does. -/

namespace Sys2Proof.Machine

/-! ## What a well-formed configuration provides (00_scope.md R6) -/

theorem Config.bounds_of_wf {cfg : Config} (h : cfg.wf = true) : 4 ≤ cfg.capMargin ∧ cfg.capMax ≤ 2 ^ 24 := by
  simp only [Config.wf, Bool.and_eq_true, decide_eq_true_eq] at h
  obtain ⟨⟨⟨⟨⟨⟨-, -, hmax⟩, hmargin⟩, -⟩, -⟩, -⟩, -⟩ := h
  exact ⟨hmargin, hmax⟩

/-! ## The control registers (10_state.md R36, R37, R41, R43) -/

/-- The reserved bits of a word stay clear when only other bits are set or cleared. -/
theorem or_and_mask_eq_zero {st bit mask : Word} (hst : st &&& mask = 0) (hbit : bit &&& mask = 0) :
    (st ||| bit) &&& mask = 0 := by
  rw [BitVec.and_comm, BitVec.and_or_distrib_left, BitVec.and_comm, hst, BitVec.and_comm, hbit]
  rfl

theorem and_and_mask_eq_zero {st mask : Word} (keep : Word) (hst : st &&& mask = 0) : st &&& keep &&& mask = 0 := by
  rw [BitVec.and_assoc, BitVec.and_comm keep, ← BitVec.and_assoc, hst]
  exact BitVec.zero_and

theorem csrsLegal_setStatus {s : State} {st : Word} (h : CsrsLegal s) (hst : st &&& 0xFFFFFFF8 = 0) :
    CsrsLegal (setStatus st s) := ⟨hst, h.2⟩

/-- A write of a control register stores a legal value (40_system_datapath.md R138). -/
theorem csrsLegal_csrWrite {s : State} (h : CsrsLegal s) (r : Csr) (v : Word) : CsrsLegal (csrWrite r v s) := by
  obtain ⟨hstatus, hctrl, hkbits, hkntap, hkinterp⟩ := h
  cases r with
  | ctrl => exact ⟨hstatus, by rw [csrWrite_csr]; exact BitVec.and_assoc .. ▸ BitVec.and_zero, hkbits, hkntap, hkinterp⟩
  | kbits => exact ⟨hstatus, hctrl, clampu_in_range (by decide) (by decide), hkntap, hkinterp⟩
  | kntap => exact ⟨hstatus, hctrl, hkbits, clampu_in_range (by decide) (by decide), hkinterp⟩
  | kinterp =>
    refine ⟨hstatus, hctrl, hkbits, hkntap, ?_⟩
    show (v &&& 3).toNat ≤ 3
    rw [BitVec.toNat_and]
    exact Nat.and_le_right
  | _ => exact ⟨hstatus, hctrl, hkbits, hkntap, hkinterp⟩

/-! ## The invariants every update keeps -/

/-- The invariants but those of the parameters, which the setter's history carries (`step_keeps_paramsInRange`). -/
structure GeometryLegal (s : State) : Prop where
  cfg : s.cfg.wf = true
  mem : memoryWf s.mem
  csrs : CsrsLegal s
  prepared : PreparedLegal s
  oscillators : OscillatorsLegal s

theorem prepared_setStatus (st : Word) (s : State) : prepared (setStatus st s) = st.getLsbD 0 := rfl

theorem prepared_csrWrite (r : Csr) (v : Word) (s : State) : prepared (csrWrite r v s) = prepared s := by
  rw [prepared, csrWrite_csr, csrStore_status, ← prepared]

theorem preparedLegal_of_not_prepared {s : State} (h : prepared s = false) : PreparedLegal s :=
  fun hprepared => absurd (h.symm.trans hprepared) (by decide)

/-- The geometry of a prepared machine depends on PREPARED, four registers and the write indices. -/
theorem PreparedLegal.congr {s t : State} (h : PreparedLegal s) (hcfg : t.cfg = s.cfg)
    (hprepared : prepared t = prepared s) (hsr : t.csr.sr = s.csr.sr) (hblk : t.csr.blk = s.csr.blk)
    (hnch : t.csr.nch = s.csr.nch) (hcap : t.csr.cap = s.csr.cap)
    (hw : ∀ c, cap s ≠ 0 → (dline s c).w < cap s → (dline t c).w < cap s) : PreparedLegal t := by
  intro ht
  have hcapEq : cap t = cap s := congrArg BitVec.toNat hcap
  obtain ⟨hsrOk, hnchOk, hblkOk, hcapOk, hwOk⟩ := h (hprepared.symm.trans ht)
  rw [hsr, hnch, hblk, hcapEq, hcfg]
  exact ⟨hsrOk, hnchOk, hblkOk, hcapOk, fun c hc => hw c (Nat.ne_of_gt (Nat.zero_lt_of_lt (hwOk c hc))) (hwOk c hc)⟩

theorem preparedLegal_prepareAccept {u : State} {sr blk : Word} {nch : Chan} {n : Nat} (hcfg : u.cfg.wf = true)
    (h : GeometryAccepted u.cfg sr blk nch n) : PreparedLegal (prepareAccept sr blk nch n u) := by
  intro _
  obtain ⟨hmargin, hmax⟩ := Config.bounds_of_wf hcfg
  have hn : cap (prepareAccept sr blk nch n u) = n := by
    show n % 2 ^ 32 = n
    have := h.le_capMax
    omega
  have hnch : (prepareAccept sr blk nch n u).csr.nch.toNat = nch.toNat := by
    rw [prepareAccept_csr]
    exact BitVec.toNat_setWidth_of_le (by decide)
  rw [hn, hnch]
  have hpos {k : Nat} {x : BitVec k} (hx : x ≠ 0) : 1 ≤ x.toNat :=
    Nat.one_le_iff_ne_zero.mpr fun e => hx (BitVec.eq_of_toNat_eq e)
  refine ⟨⟨h.sr_finite, h.sr_positive⟩, ⟨hpos h.nch_pos, h.nch_le⟩, hpos h.blk_pos, ⟨h.margin_le, h.le_capMax⟩,
    fun c _ => ?_⟩
  have hzero : (dline (prepareAccept sr blk nch n u) c).w = 0 := by simp [dline, DelayLine.reset]
  have := h.margin_le
  omega

/-- Another oscillator in slot `l` keeps the oscillators legal when it is legal itself. -/
theorem oscillatorsLegal_setLfo {u : State} {l : Chan} {o : Lfo} (h : OscillatorsLegal u)
    (ho : lfoExists u.cfg l = true → isFinite o.freq = true ∧ f32Neg o.freq = false ∧ o.wave.toNat < u.cfg.nWave) :
    OscillatorsLegal (setLfo l o u) := by
  intro k hk
  by_cases hkl : k = l
  · subst hkl
    rw [lfo_setLfo_same]
    exact ho hk
  · rw [lfo_setLfo_other hkl]
    exact h k hk

theorem oscillatorsLegal_update {u : State} {l : Chan} {o : Lfo} (h : OscillatorsLegal u)
    (ho : OscillatorUpdate u l o) : OscillatorsLegal (setLfo l o u) := by
  refine oscillatorsLegal_setLfo h fun hl => ?_
  obtain ⟨hfin, hneg, hwave⟩ := h l hl
  cases ho with
  | frequency v =>
    obtain ⟨hfin', hneg'⟩ := frequencyFor_legal hfin hneg v
    exact ⟨hfin', hneg', hwave⟩
  | waveform w hw => exact ⟨hfin, hneg, of_decide_eq_true hw⟩
  | cleared => exact ⟨hfin, hneg, hwave⟩
  | advanced _ _ => exact ⟨hfin, hneg, hwave⟩

/-- PREPARE clears phases at most (40_system_datapath.md R132). -/
theorem lfo_prepareAccept (sr blk : Word) (nch : Chan) (n : Nat) (u : State) (l : Chan) :
    lfo (prepareAccept sr blk nch n u) l =
      { lfo u l with phase := if resetsPhase u then fZero else (lfo u l).phase } := by
  rw [lfo]
  simp only [prepareAccept_lfos, preparedLfos]
  split
  · simp [lfo]
  · rfl

theorem Update.keeps_geometryLegal {i : Instr} {s u v : State} (huv : Update i s u v) (h : GeometryLegal u) :
    GeometryLegal v := by
  obtain ⟨hcfg, hmem, hcsrs, hprep, hosc⟩ := h
  cases huv with
  | outputs _ _ | transfer _ _ _ | counters _ _ | result _ _ => exact ⟨hcfg, hmem, hcsrs, hprep, hosc⟩
  | setter _ _ _ => rw [setpEffect_frame]; exact ⟨hcfg, hmem, hcsrs, hprep, hosc⟩
  | suppressed =>
    refine ⟨hcfg, hmem, csrsLegal_setStatus hcsrs (or_and_mask_eq_zero hcsrs.1 (by decide)), ?_, hosc⟩
    exact hprep.congr rfl (statusSuppressed_flags _).1 rfl rfl rfl rfl fun _ _ hw => hw
  | released _ =>
    refine ⟨hcfg, hmem, csrsLegal_setStatus hcsrs (and_and_mask_eq_zero _ hcsrs.1), ?_, hosc⟩
    exact preparedLegal_of_not_prepared (by rw [prepared_setStatus]; simp [statusReleased])
  | rejected _ =>
    refine ⟨hcfg, hmem, csrsLegal_setStatus hcsrs (or_and_mask_eq_zero (and_and_mask_eq_zero _ hcsrs.1) (by decide)),
      ?_, hosc⟩
    exact preparedLegal_of_not_prepared (by rw [prepareReject, prepared_setStatus]; simp [statusRejected])
  | prepared _ hok =>
    refine ⟨hcfg, memoryWf_zeroFill hmem _ _, ⟨?_, hcsrs.2⟩, preparedLegal_prepareAccept hcfg hok, fun l hl => ?_⟩
    · exact and_and_mask_eq_zero _ (or_and_mask_eq_zero hcsrs.1 (by decide))
    · rw [lfo_prepareAccept]
      exact hosc l hl
  | csrWritten _ r w =>
    obtain ⟨hsr, hblk, hnch, hcap⟩ := csrStore_geometry u.csr r (csrLegal r w)
    refine ⟨hcfg, hmem, csrsLegal_csrWrite hcsrs r w, ?_, hosc⟩
    exact hprep.congr rfl (prepared_csrWrite r w u) hsr hblk hnch hcap fun _ _ hw => hw
  | oscillator ho => exact ⟨hcfg, hmem, hcsrs, hprep, oscillatorsLegal_update hosc ho⟩
  | stored _ w => exact ⟨hcfg, memoryWf_writeWord hmem _ w, hcsrs, hprep, hosc⟩
  | @advanced c _ =>
    refine ⟨hcfg, hmem, hcsrs, hprep.congr rfl rfl rfl rfl rfl rfl fun k hcap hw => ?_, hosc⟩
    by_cases hk : k = c
    · rw [hk, dline_advance_same]
      exact Nat.mod_lt _ (Nat.pos_of_ne_zero hcap)
    · rw [dline_advance_other hk]
      exact hw
  | slot c t z =>
    refine ⟨hcfg, hmem, hcsrs, hprep.congr rfl rfl rfl rfl rfl rfl fun k _ hw => ?_, hosc⟩
    rw [dline_w_setApz]
    exact hw

theorem Updates.keeps_geometryLegal {i : Instr} {s t : State} (h : Updates i s t) (hs : GeometryLegal s) :
    GeometryLegal t := h.induct hs fun _ _ huv => huv.keeps_geometryLegal

/-! ## Reset and steps -/

theorem lfo_resetWith (cfg : Config) (l : Chan) : lfo (State.resetWith cfg) l = Lfo.reset := by
  simp [lfo, State.resetWith]

theorem dline_resetWith (cfg : Config) (c : Chan) : dline (State.resetWith cfg) c = DelayLine.reset := by
  simp [dline, State.resetWith]

theorem geometryLegal_resetWith {cfg : Config} (hwf : cfg.wf = true) : GeometryLegal (State.resetWith cfg) := by
  refine ⟨hwf, memoryWf_reset cfg, ?_, preparedLegal_of_not_prepared BitVec.getLsbD_zero, fun l _ => ?_⟩
  · simp only [CsrsLegal, State.resetWith]
    decide
  · rw [lfo_resetWith]
    exact ⟨by decide, by decide, Nat.succ_pos _⟩

theorem legal_iff {s : State} : Legal s ↔ GeometryLegal s ∧ ParamsInRange s :=
  ⟨fun ⟨hcfg, hmem, hparams, hcsrs, hprep, hosc⟩ => ⟨⟨hcfg, hmem, hcsrs, hprep, hosc⟩, hparams⟩,
    fun ⟨⟨hcfg, hmem, hcsrs, hprep, hosc⟩, hparams⟩ => ⟨hcfg, hmem, hparams, hcsrs, hprep, hosc⟩⟩

theorem legal_resetWith {cfg : Config} (hwf : cfg.wf = true) : Legal (State.resetWith cfg) :=
  legal_iff.mpr ⟨geometryLegal_resetWith hwf, paramsInRange_resetWith hwf⟩

theorem Served.geometryLegal {s u : State} (h : Served s u) (hs : GeometryLegal s) : GeometryLegal u := by
  obtain ⟨hcfg, hmem, hcsrs, hprep, hosc⟩ := hs
  rw [h]
  exact ⟨hcfg, hmem, hcsrs, hprep, hosc⟩

theorem step_keeps_legal {s t : State} (hs : Legal s) (h : step s = .next t) : Legal t := by
  obtain ⟨hgeometry, hparams⟩ := legal_iff.mp hs
  refine legal_iff.mpr ⟨?_, step_keeps_paramsInRange hgeometry.cfg hparams h⟩
  obtain ⟨-, rfl⟩ | rfl | ⟨i, u, hserved, hupdates⟩ := step_cases h
  · obtain ⟨hcfg, hmem, hcsrs, hprep, hosc⟩ := geometryLegal_resetWith hgeometry.cfg
    exact ⟨hcfg, hmem, hcsrs, hprep, hosc⟩
  · exact hgeometry
  · exact hupdates.keeps_geometryLegal (hserved.geometryLegal hgeometry)

/-! ## The phases (10_state.md R53) -/

theorem phasesWrapped_setLfo {u : State} {l : Chan} {o : Lfo} (h : PhasesWrapped u)
    (ho : lfoExists u.cfg l = true → PhaseWrapped o.phase) : PhasesWrapped (setLfo l o u) := by
  intro k hk
  by_cases hkl : k = l
  · subst hkl
    rw [lfo_setLfo_same]
    exact ho hk
  · rw [lfo_setLfo_other hkl]
    exact h k hk

/-- Where the model stops at a phase that is not finite, every update keeps the phases wrapped in a legal state. -/
theorem Update.keeps_phasesWrapped {i : Instr} {s u v : State} (huv : Update i s u v) (hlegal : GeometryLegal u)
    (hstop : u.cfg.openPoints = .stop) (h : PhasesWrapped u) : PhasesWrapped v := by
  cases huv with
  | setter _ _ _ => rw [setpEffect_frame]; exact h
  | prepared _ _ =>
    intro l hl
    rw [lfo_prepareAccept]
    dsimp only
    split
    · exact phaseWrapped_fZero
    · exact h l hl
  | oscillator ho =>
    refine phasesWrapped_setLfo h fun hl => ?_
    cases ho with
    | frequency _ => exact h _ hl
    | waveform _ _ => exact h _ hl
    | cleared => exact phaseWrapped_fZero
    | advanced hprepared hfinite =>
      obtain ⟨⟨-, hsr⟩, -⟩ := hlegal.prepared hprepared
      obtain ⟨-, hfreq, -⟩ := hlegal.oscillators _ hl
      exact phaseWrapped_wrappedPhase (h _ hl) hfreq hsr (hfinite hstop)
  | _ => exact h

theorem Updates.keeps_phasesWrapped {i : Instr} {s t : State} (h : Updates i s t) (hlegal : GeometryLegal s)
    (hstop : s.cfg.openPoints = .stop) (hs : PhasesWrapped s) : PhasesWrapped t := by
  induction h with
  | refl => exact hs
  | tail hsu huv ih =>
    refine huv.keeps_phasesWrapped (Updates.keeps_geometryLegal hsu hlegal) ?_ ih
    rw [(Updates.frame hsu).1, hstop]

theorem phasesWrapped_resetWith (cfg : Config) : PhasesWrapped (State.resetWith cfg) := by
  intro l _
  rw [lfo_resetWith]
  exact phaseWrapped_fZero

theorem step_keeps_phasesWrapped {s t : State} (hstop : s.cfg.openPoints = .stop) (hlegal : Legal s)
    (hs : PhasesWrapped s) (h : step s = .next t) : PhasesWrapped t := by
  obtain ⟨-, rfl⟩ | rfl | ⟨i, u, hserved, hupdates⟩ := step_cases h
  · exact phasesWrapped_resetWith s.cfg
  · exact hs
  · refine hupdates.keeps_phasesWrapped (hserved.geometryLegal (legal_iff.mp hlegal).1) ?_ ?_
    · rw [hserved]
      exact hstop
    · rw [hserved]
      exact hs

end Sys2Proof.Machine
end

/-! ## The statements about the invariants -/

section
open Sys2Proof.Machine

/-- Settles O53: every update of every command keeps the invariants, and the setter clamps into the parameter ranges. -/
theorem stepKeepsLegal : Obligations.StepKeepsLegal := fun _ _ => step_keeps_legal

/-- Settles O54: the reset values are legal in every well-formed configuration, the reference one among them. -/
theorem resetIsLegal : Obligations.ResetIsLegal :=
  ⟨legal_resetWith (cfg := Sys2Proof.Config.reference) (by decide), fun _ => legal_resetWith⟩

/-- Settles O55: a phase is cleared, kept or the remainder by TWO_PI of a finite sum that is not negative. -/
theorem phasesStayWrapped : Obligations.PhasesStayWrapped := fun _ _ hstop hlegal => step_keeps_phasesWrapped hstop hlegal

end

section
/-! When each command is legal (30_encoding.md R110 (c) to (f)), by the class of the command: the port's right, the fields,
the channel and PREPARED. -/

namespace Sys2Proof.Machine

/-! ## The classes of commands -/

theorem portAccepts_a (i : Instr) : portAccepts i .a = i.op.onPort .a := by
  simp [portAccepts]

variable {i : Instr} {s : State}

/-- A command the C-port does not accept is legal on the A-port when its fields, its channel and PREPARED allow it. -/
theorem illegality_audio_iff (ha : i.op.onPort .a = true) (hc : i.op.onPort .c = false) :
    illegality i s = none ↔ s.ports.port = .a ∧ i.wf s.cfg = true ∧ channelInUse s i = true ∧
      (i.op.needsPrepared = true → prepared s = true) := by
  rw [illegality_eq_none]
  cases hport : s.ports.port with
  | a => simp [portAccepts_a, ha]
  | c => simp [portAccepts, hc]

theorem channelInUse_iff : channelInUse s i = true ↔ ∀ c, delayChannel i = some c → c.toNat < s.csr.nch.toNat := by
  unfold channelInUse
  split <;> simp [*]

/-- A command of the A-port that names no delay line and needs no PREPARE is legal there when its fields are. -/
theorem illegality_fields_iff (ha : i.op.onPort .a = true) (hc : i.op.onPort .c = false)
    (hchannel : delayChannel i = none) (hneeds : i.op.needsPrepared = false) :
    illegality i s = none ↔ s.ports.port = .a ∧ i.wf s.cfg = true := by
  simp [illegality_audio_iff ha hc, channelInUse_iff, hchannel, hneeds]

/-- A command of the A-port without reserved fields, delay line or need of PREPARE is legal there always. -/
theorem illegality_plain_iff (ha : i.op.onPort .a = true) (hc : i.op.onPort .c = false)
    (hchannel : delayChannel i = none) (hneeds : i.op.needsPrepared = false) (hwf : i.wf s.cfg = true) :
    illegality i s = none ↔ s.ports.port = .a := by
  simp [illegality_fields_iff ha hc hchannel hneeds, hwf]

/-- A delay-line command is legal on the A-port of a prepared machine for a channel in use, its fields permitting. -/
theorem illegality_delayLine_iff {c : Chan} (ha : i.op.onPort .a = true) (hc : i.op.onPort .c = false)
    (hchannel : delayChannel i = some c) (hneeds : i.op.needsPrepared = true) :
    illegality i s = none ↔
      s.ports.port = .a ∧ i.wf s.cfg = true ∧ c.toNat < s.csr.nch.toNat ∧ prepared s = true := by
  simp [illegality_audio_iff ha hc, channelInUse_iff, hchannel, hneeds]

/-- A command of the C-port alone is legal there when its fields are. -/
theorem illegality_control_iff (ha : i.op.onPort .a = false) (hc : portAccepts i .c = true) :
    illegality i s = none ↔ s.ports.port = .c ∧ i.wf s.cfg = true := by
  cases hport : s.ports.port with
  | a => simp [illegality_eq_none, hport, portAccepts_a, ha]
  | c => simp [illegality_eq_none_iff_of_port_c hport, hc]

/-! ## The fields of single commands (30_encoding.md R110 (d)) -/

section
variable {cfg : Config}

theorem delayParamLegal_iff {pd : ParamIdx} : delayParamLegal cfg pd = true ↔ pd = 31 ∨ pd.toNat < cfg.nParam := by
  simp [delayParamLegal, paramExists]

theorem paramExists_iff {p : ParamIdx} : paramExists cfg p = true ↔ p.toNat < cfg.nParam := by simp [paramExists]

theorem lfoExists_iff {l : Chan} : lfoExists cfg l = true ↔ l.toNat < cfg.nCh := by simp [lfoExists]

theorem csrReadable_iff {a : CsrAddr} : csrReadable cfg a = true ↔ ∃ r, csrAt cfg a = some r := Option.isSome_iff_exists

theorem csrWritable_iff {a : CsrAddr} :
    csrWritable cfg a = true ↔ ∃ r, csrAt cfg a = some r ∧ csrAccess r ≠ .ro := by
  unfold csrWritable
  split <;> simp [*]

theorem tapLegal_iff {tap : BitVec 2} : tapLegal tap = true ↔ tap ≠ 3 := by simp [tapLegal]

end

/-! ## Single commands -/

theorem illegality_prepare_iff {ra rb : Reg} {nch : Chan} {pd : ParamIdx} :
    illegality (.prepare ra rb nch pd) s = none ↔ s.ports.port = .a ∧ (pd = 31 ∨ pd.toNat < s.cfg.nParam) :=
  (illegality_fields_iff rfl rfl rfl rfl).trans (and_congr_right' delayParamLegal_iff)

theorem illegality_csrr_iff {rd : Reg} {a : CsrAddr} :
    illegality (.csrr rd a) s = none ↔ s.ports.port = .a ∧ ∃ r, csrAt s.cfg a = some r :=
  (illegality_fields_iff rfl rfl rfl rfl).trans (and_congr_right' csrReadable_iff)

theorem illegality_csrw_iff {ra : Reg} {a : CsrAddr} :
    illegality (.csrw a ra) s = none ↔ s.ports.port = .a ∧ ∃ r, csrAt s.cfg a = some r ∧ csrAccess r ≠ .ro :=
  (illegality_fields_iff rfl rfl rfl rfl).trans (and_congr_right' csrWritable_iff)

/-- The four parameter reads are legal alike: on the C-port they name `D0` (60_exceptions.md R299). -/
theorem illegality_paramRead_iff {rd : Reg} {p : ParamIdx} (hi : i ∈ [Instr.getp rd p, .pmin rd p, .pmax rd p, .pdef rd p]) :
    illegality i s = none ↔ (s.ports.port = .c → rd = 0) ∧ p.toNat < s.cfg.nParam := by
  have hfields : portAccepts i .a = true ∧ (portAccepts i .c = true ↔ rd = 0) ∧ i.wf s.cfg = paramExists s.cfg p ∧
      delayChannel i = none ∧ i.op.needsPrepared = false := by
    simp only [List.mem_cons, List.not_mem_nil, or_false] at hi
    obtain rfl | rfl | rfl | rfl := hi <;> exact ⟨rfl, beq_iff_eq, rfl, rfl, rfl⟩
  obtain ⟨ha, hc, hwf, hchannel, hneeds⟩ := hfields
  rw [illegality_eq_none, channelInUse_iff, hwf, paramExists_iff, hchannel, hneeds]
  cases s.ports.port with
  | a => simp [ha]
  | c => simp [hc]

theorem illegality_setp_iff {p : ParamIdx} {imm : Word} :
    illegality (.setp p imm) s = none ↔ s.ports.port = .c ∧ p.toNat < s.cfg.nParam :=
  (illegality_control_iff rfl rfl).trans (and_congr_right' paramExists_iff)

theorem illegality_enc_iff : illegality .enc s = none ↔ s.ports.port = .c :=
  (illegality_control_iff rfl rfl).trans (and_iff_left rfl)

theorem illegality_dec_iff : illegality .dec s = none ↔ s.ports.port = .c :=
  (illegality_control_iff rfl rfl).trans (and_iff_left rfl)

theorem illegality_fwd_iff {k : Chan} {p : ParamIdx} :
    illegality (.fwd k p) s = none ↔ s.ports.port = .a ∧ k.toNat ≤ 4 ∧ p.toNat < s.cfg.nParam :=
  (illegality_fields_iff rfl rfl rfl rfl).trans (by simp [Instr.wf, roleLegal, paramExists])

theorem illegality_setf_iff {l : Chan} {ra : Reg} :
    illegality (.setf l ra) s = none ↔ s.ports.port = .a ∧ l.toNat < s.cfg.nCh :=
  (illegality_fields_iff rfl rfl rfl rfl).trans (and_congr_right' lfoExists_iff)

theorem illegality_lrst_iff {l : Chan} : illegality (.lrst l) s = none ↔ s.ports.port = .a ∧ l.toNat < s.cfg.nCh :=
  (illegality_fields_iff rfl rfl rfl rfl).trans (and_congr_right' lfoExists_iff)

theorem illegality_setw_iff {l : Chan} {w : BitVec 2} :
    illegality (.setw l w) s = none ↔ s.ports.port = .a ∧ l.toNat < s.cfg.nCh ∧ w.toNat < s.cfg.nWave :=
  (illegality_fields_iff rfl rfl rfl rfl).trans (by simp [Instr.wf, lfoExists, waveExists])

theorem illegality_lnext_iff {rd : Reg} {l : Chan} :
    illegality (.lnext rd l) s = none ↔ s.ports.port = .a ∧ l.toNat < s.cfg.nCh ∧ prepared s = true :=
  (illegality_audio_iff rfl rfl).trans
    (by simp [Instr.wf, lfoExists, channelInUse_iff, delayChannel, Instr.op, Op.needsPrepared])

theorem illegality_pop_iff {rd ra : Reg} {c : Chan} {m : Interp} {tap : BitVec 2} :
    illegality (.pop rd ra c m tap) s = none ↔
      s.ports.port = .a ∧ tap ≠ 3 ∧ c.toNat < s.csr.nch.toNat ∧ prepared s = true :=
  (illegality_delayLine_iff rfl rfl rfl rfl).trans (and_congr_right' (and_congr_left' tapLegal_iff))

/-- The delay-line commands without a reserved field value. -/
theorem illegality_plainDelayLine_iff {c : Chan} (ha : i.op.onPort .a = true) (hc : i.op.onPort .c = false)
    (hchannel : delayChannel i = some c) (hneeds : i.op.needsPrepared = true) (hwf : i.wf s.cfg = true) :
    illegality i s = none ↔ s.ports.port = .a ∧ c.toNat < s.csr.nch.toNat ∧ prepared s = true := by
  simp [illegality_delayLine_iff ha hc hchannel hneeds, hwf]

theorem illegality_thr_iff {b : BitVec 2} {ra : Reg} :
    illegality (.thr b ra) s = none ↔ s.ports.port = .a ∧ b ≠ 3 :=
  (illegality_fields_iff rfl rfl rfl rfl).trans (by simp [Instr.wf, thresholdLegal])

end Sys2Proof.Machine
end

/-! ## The statement about legality -/

section
open Sys2Proof.Machine

/-- Settles O8: each row by the class of its command. -/
theorem legalityTable : Obligations.LegalityTable := by
  intro s
  refine ⟨illegality_nop s, fun _ _ _ _ => illegality_prepare_iff, illegality_plain_iff rfl rfl rfl rfl rfl,
    fun _ _ => illegality_plain_iff rfl rfl rfl rfl rfl, fun _ _ => illegality_plain_iff rfl rfl rfl rfl rfl,
    fun _ => illegality_plain_iff rfl rfl rfl rfl rfl, fun _ _ => illegality_csrr_iff,
    fun _ _ => illegality_csrw_iff, fun _ _ _ => illegality_plain_iff rfl rfl rfl rfl rfl,
    fun _ _ _ => illegality_plain_iff rfl rfl rfl rfl rfl, fun _ _ _ => illegality_plain_iff rfl rfl rfl rfl rfl,
    fun _ _ _ => illegality_plain_iff rfl rfl rfl rfl rfl, fun _ _ => illegality_paramRead_iff (by simp),
    fun _ _ => illegality_paramRead_iff (by simp), fun _ _ => illegality_paramRead_iff (by simp),
    fun _ _ => illegality_paramRead_iff (by simp), fun _ _ => illegality_setp_iff, illegality_enc_iff,
    illegality_dec_iff, fun _ _ => illegality_fwd_iff, fun _ _ => illegality_setf_iff, fun _ => illegality_lrst_iff,
    fun _ _ => illegality_lnext_iff, fun _ _ => illegality_setw_iff,
    fun _ _ => illegality_plainDelayLine_iff rfl rfl rfl rfl rfl,
    fun _ => illegality_plainDelayLine_iff rfl rfl rfl rfl rfl,
    fun _ _ => illegality_plainDelayLine_iff rfl rfl rfl rfl rfl, fun _ _ _ _ _ => illegality_pop_iff,
    fun _ _ _ _ => illegality_plainDelayLine_iff rfl rfl rfl rfl rfl,
    fun _ _ => illegality_plain_iff rfl rfl rfl rfl rfl, fun _ _ => illegality_thr_iff,
    fun _ _ _ => illegality_plain_iff rfl rfl rfl rfl rfl,
    fun _ _ _ => illegality_plainDelayLine_iff rfl rfl rfl rfl rfl,
    fun _ _ _ _ => illegality_plainDelayLine_iff rfl rfl rfl rfl rfl,
    fun _ _ => illegality_plain_iff rfl rfl rfl rfl rfl⟩

end

section
/-! What the single commands do when they are legal: system and data movement, control registers, arithmetic, parameters,
oscillators and thresholds (40_system_datapath.md to 44_waveshaper.md). -/

namespace Sys2Proof.Machine

/-! ## The views and the writable registers of the CSR map (10_state.md R35, R44) -/

theorem viewAddr_eq (page : CsrAddr) (l : Chan) : page + l.setWidth 8 = BitVec.ofNat 8 (page.toNat + l.toNat) := by
  apply BitVec.eq_of_toNat_eq
  simp only [BitVec.toNat_add, BitVec.toNat_setWidth, BitVec.toNat_ofNat]
  omega

/-- `clampu` in one expression, for a range that is not empty (00_scope.md R19). -/
theorem clampu_eq {v : Word} {lo hi : Nat} (h : lo ≤ hi) :
    clampu v lo hi = BitVec.ofNat 32 (max lo (min v.toNat hi)) := by
  unfold clampu
  split
  · rw [show max lo (min v.toNat hi) = lo by omega]
  · split
    · rw [show max lo (min v.toNat hi) = hi by omega]
    · rw [show max lo (min v.toNat hi) = v.toNat by omega, BitVec.ofNat_toNat, BitVec.setWidth_eq]

/-- A register that can be written reads as the word stored; every other reads as before. -/
theorem csrValue_csrWrite_other {q r : Csr} (h : q ≠ r) (v : Word) (s : State) :
    csrValue (csrWrite r v s) q = csrValue s q := by
  cases r <;> cases q <;> simp_all [csrValue, csrStore, lfo, dline]

theorem csrValue_csrWrite_same {r : Csr} (h : csrAccess r ≠ .ro) (v : Word) (s : State) :
    csrValue (csrWrite r v s) r = csrLegal r v := by
  cases r with
  | status | sr | blk | nch | cap | nparam => exact absurd rfl h
  | lfreq _ | lphase _ | lwave _ | widx _ => exact absurd rfl h
  | _ => rfl

theorem csrLegal_of_rw {r : Csr} (h : csrAccess r = .rw) (v : Word) : csrLegal r v = v := by
  cases r with
  | ctrl | kbits | kntap | kinterp => cases h
  | _ => rfl

/-! ## Commands of the A-port -/

section
variable {s : State}

theorem exec_csrr {a : CsrAddr} {r : Csr} (rd : Reg) (hport : s.ports.port = .a) (hr : csrAt s.cfg a = some r) :
    exec (.csrr rd a) s = .next (writeResult rd (csrValue s r) s) := by
  refine (command_of_legal (illegality_csrr_iff.mpr ⟨hport, r, hr⟩) _).trans ?_
  rw [csrrEffect, hr]

theorem exec_csrw {a : CsrAddr} {r : Csr} (ra : Reg) (hport : s.ports.port = .a) (hr : csrAt s.cfg a = some r)
    (hwritable : csrAccess r ≠ .ro) : exec (.csrw a ra) s = .next (respond 0 (csrWrite r (reg s ra) s)) := by
  refine (command_of_legal (illegality_csrw_iff.mpr ⟨hport, r, hr, hwritable⟩) _).trans ?_
  rw [csrwEffect, hr]

theorem exec_thr {b : BitVec 2} (ra : Reg) (hport : s.ports.port = .a) (hb : b ≠ 3) :
    exec (.thr b ra) s = .next
      (respond 0 (csrWrite (thresholdCsr b) (derivedThreshold s.cfg (thresholdBase s.cfg b) (reg s ra)) s)) :=
  command_of_legal (illegality_thr_iff.mpr ⟨hport, hb⟩) _

theorem exec_fwd {k : Chan} {p : ParamIdx} (hport : s.ports.port = .a) (hk : k.toNat ≤ 4) (hp : p.toNat < s.cfg.nParam) :
    exec (.fwd k p) s = .next (respond 0 (emitFwd k (param s p) s)) :=
  command_of_legal (illegality_fwd_iff.mpr ⟨hport, hk, hp⟩) _

theorem exec_setf {l : Chan} (ra : Reg) (hport : s.ports.port = .a) (hl : l.toNat < s.cfg.nCh) :
    exec (.setf l ra) s = .next
      (respond 0 (setLfo l { lfo s l with freq := frequencyFor (lfo s l).freq (reg s ra) } s)) :=
  command_of_legal (illegality_setf_iff.mpr ⟨hport, hl⟩) _

/-- Writing an oscillator back changes nothing. -/
theorem setLfo_self (l : Chan) (s : State) : setLfo l (lfo s l) s = s := by
  simp [setLfo, lfo]

/-! ## LNEXT (42_oscillator.md R184, R186) -/

theorem exec_lnext {rd : Reg} {l : Chan} (hport : s.ports.port = .a) (hl : l.toNat < s.cfg.nCh)
    (hprepared : prepared s = true) :
    exec (.lnext rd l) s =
      if !isFinite (advancedPhase s l) && s.cfg.openPoints == .stop then .fault .nonfinitePhase
      else .next (lnextEffect rd l s) :=
  command_of_legal (illegality_lnext_iff.mpr ⟨hport, hl, hprepared⟩) _

theorem exec_lnext_of_runs {l : Chan} (rd : Reg) (hport : s.ports.port = .a) (hl : l.toNat < s.cfg.nCh)
    (hprepared : prepared s = true) (hruns : LnextRuns s l) :
    exec (.lnext rd l) s = .next (lnextEffect rd l s) := by
  rw [exec_lnext hport hl hprepared, if_neg]
  rcases hruns with hrun | hfinite
  · simp [hrun]
  · simp [hfinite]

/-- The waveforms give the canonical NaN of an operand that is not finite (00_scope.md R22, 42_oscillator.md R187). -/
theorem fsin_of_not_finite (cfg : Config) {a : Word} (h : isFinite a = false) : fsin cfg a = qNaN := by
  simp [fsin, h]

theorem waveFn_of_not_finite (cfg : Config) (w : BitVec 2) {a : Word} (h : isFinite a = false) :
    waveFn cfg w a = qNaN := by
  unfold waveFn
  split
  · exact fsin_of_not_finite cfg h
  · simp [h]

/-- The remainder of a value that is not finite is the canonical NaN (00_scope.md R16). -/
theorem fmodt_of_not_finite {a : Word} (h : isFinite a = false) (b : Word) : fmodt a b = qNaN := by
  unfold fmodt
  cases hnan : isNaN a with
  | true => simp
  | false =>
    have hinf := (isFinite_or_isInf hnan).resolve_left (ne_true_of_eq_false h)
    simp [hinf]

end

end Sys2Proof.Machine
end

/-! ## The statements about single commands -/

section
open Sys2Proof Sys2Proof.Machine

/-- Settles O15: on the A-port the four commands are never suppressed. -/
theorem releaseAndDataMovement : Obligations.ReleaseAndDataMovement := fun _ _ _ _ hport =>
  ⟨command_of_legal ((illegality_plain_iff rfl rfl rfl rfl rfl).mpr hport) _,
    command_of_legal ((illegality_plain_iff rfl rfl rfl rfl rfl).mpr hport) _,
    command_of_legal ((illegality_plain_iff rfl rfl rfl rfl rfl).mpr hport) _,
    command_of_legal ((illegality_plain_iff rfl rfl rfl rfl rfl).mpr hport) _⟩

/-- Settles O17: CSRR writes the value of the register its address names; the map names them at each address. -/
theorem csrrReads : Obligations.CsrrReads := by
  refine ⟨fun s rd a r hport hr => exec_csrr rd hport hr, fun s rd hport => ?_, fun s rd l hport hl => ?_⟩
  · have hrow {a : CsrAddr} {r : Csr} {v : Word} (hr : csrAt s.cfg a = some r) (hv : csrValue s r = v) :
        exec (.csrr rd a) s = .next (writeResult rd v s) := hv ▸ exec_csrr rd hport hr
    simp only [List.forall_mem_cons, List.not_mem_nil, false_imp_iff, implies_true, and_true]
    and_intros <;> exact hrow rfl rfl
  · obtain ⟨hfreq, hphase, hwave, hwidx⟩ := csrAt_view hl
    have hwaveWord : (lfo s l).wave.setWidth 32 = BitVec.ofNat 32 (lfo s l).wave.toNat :=
      BitVec.eq_of_toNat_eq (by simp)
    simp only [viewAddr_eq, List.forall_mem_cons, List.not_mem_nil, false_imp_iff, implies_true, and_true]
    refine ⟨exec_csrr rd hport hfreq, exec_csrr rd hport hphase, ?_, exec_csrr rd hport hwidx⟩
    rw [← hwaveWord]
    exact exec_csrr rd hport hwave

/-- Settles O18: a write stores `legal(csr, v)`, and each register has a store of its own. -/
theorem csrwWrites : Obligations.CsrwWrites := by
  refine ⟨fun s a ra r hport hr hwritable => ?_, fun s ra hport => ?_⟩
  · have hsame := csrValue_csrWrite_same hwritable (reg s ra) s
    refine ⟨_, exec_csrw ra hport hr hwritable, fun hrw => ?_, ?_, ?_, ?_, ?_, fun q hq => ?_⟩
    · exact hsame.trans (csrLegal_of_rw hrw _)
    · rintro rfl
      rfl
    · rintro rfl
      refine (toNat_clampu (by decide) (by decide)).trans ?_
      split_ifs <;> omega
    · rintro rfl
      refine (toNat_clampu (by decide) (by decide)).trans ?_
      split_ifs <;> omega
    · rintro rfl
      rfl
    · exact csrValue_csrWrite_other hq (reg s ra) s
  · have hrow {a : CsrAddr} {r : Csr} {x : Csrs} (hr : csrAt s.cfg a = some r) (hwritable : csrAccess r ≠ .ro)
        (hx : csrStore s.csr r (csrLegal r (reg s ra)) = x) :
        exec (.csrw a ra) s = .next { s with csr := x, events := responded s 0 } := hx ▸ exec_csrw ra hport hr hwritable
    simp only [← clampu_eq (show 1 ≤ 32 by decide), ← clampu_eq (show 1 ≤ 3 by decide), List.forall_mem_cons,
      List.not_mem_nil, false_imp_iff, implies_true, and_true]
    and_intros <;> exact hrow rfl (by decide) rfl

/-- Settles O20: on the A-port the four commands are never suppressed. -/
theorem arithmeticCommands : Obligations.ArithmeticCommands := by
  intro s rd ra rb hport
  simp only [List.forall_mem_cons, List.not_mem_nil, false_imp_iff, implies_true, and_true]
  and_intros <;> exact command_of_legal ((illegality_plain_iff rfl rfl rfl rfl rfl).mpr hport) _

/-- Settles O26: a parameter read is legal for a parameter that exists, on the C-port with `rd` 0. -/
theorem parameterReadsAndFwd : Obligations.ParameterReadsAndFwd := by
  intro s rd k p hp
  have hlegal {i : Instr} {q : Reg} (hq : s.ports.port = .c → q = 0)
      (hi : i ∈ [Instr.getp q p, .pmin q p, .pmax q p, .pdef q p]) : illegality i s = none :=
    (illegality_paramRead_iff hi).mpr ⟨hq, hp⟩
  refine ⟨fun hport => ⟨?_, fun hk => ?_⟩, fun hport => ?_⟩
  · have hq : s.ports.port = .c → rd = 0 := fun hc => by cases hport.symm.trans hc
    have hresult (v : Word) : paramResult rd v s = writeResult rd v s := by rw [paramResult, hport]
    simp only [List.forall_mem_cons, List.not_mem_nil, false_imp_iff, implies_true, and_true]
    and_intros <;>
      exact (command_of_legal (hlegal hq (by simp)) _).trans (congrArg Host.Outcome.next (hresult _))
  · rw [exec_fwd hport hk hp, ← hport]
    rfl
  · have hresult (v : Word) : paramResult 0 v s = respond v s := by rw [paramResult, hport]
    simp only [List.forall_mem_cons, List.not_mem_nil, false_imp_iff, implies_true, and_true]
    and_intros <;>
      exact (command_of_legal (hlegal (fun _ => rfl) (by simp)) _).trans (congrArg Host.Outcome.next (hresult _))

/-- Settles O27: SETP runs the setter and answers the parameter's value afterwards. -/
theorem setpStores : Obligations.SetpStores := by
  intro s p v hport hp
  have hexec : exec (.setp p v) s = .next (respond (param (setpEffect p v s) p) (setpEffect p v s)) :=
    command_of_legal (illegality_setp_iff.mpr ⟨hport, hp⟩) _
  refine ⟨fun hnan => ?_, fun hnum => ?_⟩
  · rw [hexec, setpEffect_of_nan hnan]
    rfl
  · have hparam : param (emitNotify p (clamped s p v) (setParam p (clamped s p v) s)) p = clamped s p v :=
      param_setParam_same p _ s
    rw [hexec, setpEffect_of_number hnum, hparam, ← hport]
    rfl

/-- Settles O29: each writes one field, and SETF of a NaN writes the frequency that was there. -/
theorem oscillatorWrites : Obligations.OscillatorWrites := by
  intro s l ra w hport hl
  refine ⟨fun hnan => ?_, fun hnum => ?_, command_of_legal (illegality_lrst_iff.mpr ⟨hport, hl⟩) _,
    fun hw => command_of_legal (illegality_setw_iff.mpr ⟨hport, hl, hw⟩) _⟩
  · rw [exec_setf ra hport hl, frequencyFor, if_pos hnan]
    exact congrArg (fun u => Host.Outcome.next (respond 0 u)) (setLfo_self l s)
  · rw [exec_setf ra hport hl, frequencyFor, hnum]
    rfl

/-- Settles O30: where LNEXT runs, its effect is the advance, the wrap and the waveform. -/
theorem lnextAdvances : Obligations.LnextAdvances := by
  intro s rd l hport hl hprepared hruns
  refine ⟨exec_lnext_of_runs rd hport hl hprepared hruns, fun hwave => ?_⟩
  simp only [hwave, waveFn, if_true]

/-- Settles O42: selectors 0 to 2 name a register and its base constant; 3 is reserved. -/
theorem thrDerives : Obligations.ThrDerives := by
  intro s ra hport
  have hreserved : illegality (.thr 3 ra) s ≠ none := fun h => (illegality_thr_iff.mp h).2 rfl
  exact ⟨exec_thr ra hport (by decide), exec_thr ra hport (by decide), exec_thr ra hport (by decide),
    exec_of_illegal hreserved⟩

end

section
/-! PREPARE (40_system_datapath.md R132, R133): accepted or rejected, and that it may be repeated. -/

namespace Sys2Proof.Machine

/-! ## The zero fill by channel and index (20_memory.md R72) -/

/-- Every word (c, i) with c < nch and i < n reads zero afterwards. -/
theorem readWord_zeroFill {nch n : Nat} (m : Memory) {c : Chan} {i : Nat} (hc : c.toNat < nch) (hi : i < n) :
    readWord (zeroFill nch n m) (dlAddr c i) = 0 := by
  have hbyte (k : Nat) (hk : k < 4) : readByte (zeroFill nch n m) (dlAddr c i + k) = 0 := by
    rw [readByte_zeroFill, inUse_dlAddr nch n c i k hk, decide_eq_true hc, decide_eq_true hi]
    rfl
  have h0 := hbyte 0 (by decide)
  rw [Nat.add_zero] at h0
  rw [readWord, hbyte 3 (by decide), hbyte 2 (by decide), hbyte 1 (by decide), h0]
  rfl

/-- A byte outside all those words is not in use. -/
theorem inUse_eq_false_of_outside {nch n a : Nat}
    (h : ∀ (c : Chan) (i : Nat), c.toNat < nch → i < n → a < dlAddr c i ∨ dlAddr c i + 4 ≤ a) :
    inUse nch n a = false := by
  refine Bool.eq_false_iff.mpr fun huse => ?_
  simp only [inUse, Bool.and_eq_true, decide_eq_true_eq] at huse
  obtain ⟨hc, hi⟩ := huse
  have hchan : (BitVec.ofNat 4 (a / 4 % 16)).toNat = a / 4 % 16 := by
    rw [BitVec.toNat_ofNat]
    omega
  have hout := h (BitVec.ofNat 4 (a / 4 % 16)) (a / 64) (by rwa [hchan]) hi
  simp only [dlAddr, hchan] at hout
  omega

theorem zeroFill_idem (nch n : Nat) (m : Memory) : zeroFill nch n (zeroFill nch n m) = zeroFill nch n m := by
  simp [zeroFill, List.filter_filter]

/-! ## Accepting and rejecting -/

theorem prepareRejected_iff {s : State} {sr blk : Word} {nch : Chan} {pd : ParamIdx} :
    prepareRejected s sr blk nch pd = true ↔
      (isNaN sr = true ∨ isInf sr = true ∨ fle sr fZero = true) ∨ blk = 0 ∨ (nch = 0 ∨ s.cfg.nCh < nch.toNat) ∨
        (pd ≠ 31 ∧ (isNaN (nominalDelay s sr pd) = true ∨ flt (nominalDelay s sr pd) fZero = true ∨
          fgt (nominalDelay s sr pd) (u2f s.cfg.capMax) = true)) ∨
        s.cfg.capMax < capacityFor s (nominalDelay s sr pd) := by
  simp [prepareRejected, or_assoc]

theorem exec_prepare {s : State} {pd : ParamIdx} (ra rb : Reg) (nch : Chan) (hport : s.ports.port = .a)
    (hpd : pd = 31 ∨ pd.toNat < s.cfg.nParam) :
    exec (.prepare ra rb nch pd) s = .next (prepareEffect (reg s ra) (reg s rb) nch pd s) :=
  command_of_legal (illegality_prepare_iff.mpr ⟨hport, hpd⟩) _

theorem prepareEffect_of_rejected {s : State} {sr blk : Word} {nch : Chan} {pd : ParamIdx}
    (h : prepareRejected s sr blk nch pd = true) :
    prepareEffect sr blk nch pd s = respond (statusRejected s.csr.status) (prepareReject s) := by
  simp only [prepareEffect, h, if_true]
  rfl

theorem prepareEffect_of_accepted {s : State} {sr blk : Word} {nch : Chan} {pd : ParamIdx}
    (h : prepareRejected s sr blk nch pd = false) :
    prepareEffect sr blk nch pd s =
      respond (statusPrepared s.csr.status) (prepareAccept sr blk nch (capacityFor s (nominalDelay s sr pd)) s) := by
  simp only [prepareEffect, h, Bool.false_eq_true, if_false]
  rfl

/-! ## Repeating (R132) -/

theorem statusRejected_idem (st : Word) : statusRejected (statusRejected st) = statusRejected st := by
  apply BitVec.eq_of_getLsbD_eq
  intro i hi
  simp only [statusRejected, BitVec.getLsbD_or, BitVec.getLsbD_and]
  grind

theorem statusPrepared_idem (st : Word) : statusPrepared (statusPrepared st) = statusPrepared st := by
  apply BitVec.eq_of_getLsbD_eq
  intro i hi
  simp only [statusPrepared, BitVec.getLsbD_or, BitVec.getLsbD_and]
  grind

theorem preparedLfos_idem {s t : State} (hlfos : t.lfos = preparedLfos s) (hctrl : resetsPhase t = resetsPhase s) :
    preparedLfos t = t.lfos := by
  rw [preparedLfos, hctrl, hlfos, preparedLfos]
  split
  · rw [Vector.map_map]
    rfl
  · rfl

/-- A rejected PREPARE finds nothing more to change. -/
theorem prepareReject_idem (v : Word) (s : State) :
    prepareReject (respond v (prepareReject s)) = respond v (prepareReject s) :=
  congrArg (fun st => respond v (setStatus st s)) (statusRejected_idem s.csr.status)

/-- An accepted PREPARE finds nothing more to change. -/
theorem prepareAccept_idem (v sr blk : Word) (nch : Chan) (n : Nat) (s : State) :
    prepareAccept sr blk nch n (respond v (prepareAccept sr blk nch n s)) =
      respond v (prepareAccept sr blk nch n s) := by
  generalize ht : respond v (prepareAccept sr blk nch n s) = t
  have hstatus : statusPrepared t.csr.status = t.csr.status := by
    rw [← ht]
    exact statusPrepared_idem s.csr.status
  have hlfos : preparedLfos t = t.lfos := by
    rw [← ht]
    exact preparedLfos_idem (s := s) rfl rfl
  have hmem : zeroFill nch.toNat n t.mem = t.mem := by
    rw [← ht]
    exact zeroFill_idem nch.toNat n s.mem
  have hagain : prepareAccept sr blk nch n t =
      { t with
        csr := { t.csr with status := statusPrepared t.csr.status }
        lfos := preparedLfos t
        mem := zeroFill nch.toNat n t.mem } := by
    rw [← ht]
    rfl
  rw [hagain, hstatus, hlfos, hmem]

/-- What PREPARE reads besides STATUS, the phases and the memory is what it leaves. -/
theorem prepareEffect_idem {s : State} {sr blk : Word} {nch : Chan} {pd : ParamIdx} :
    prepareEffect sr blk nch pd (prepareEffect sr blk nch pd s) =
      respond (prepareEffect sr blk nch pd s).csr.status (prepareEffect sr blk nch pd s) := by
  cases h : prepareRejected s sr blk nch pd with
  | true =>
    rw [prepareEffect_of_rejected h,
      prepareEffect_of_rejected (s := respond (statusRejected s.csr.status) (prepareReject s)) h, prepareReject_idem]
    exact congrArg (fun st => respond st _) (statusRejected_idem s.csr.status)
  | false =>
    generalize hn : capacityFor s (nominalDelay s sr pd) = n
    rw [prepareEffect_of_accepted h, hn,
      prepareEffect_of_accepted (s := respond (statusPrepared s.csr.status) (prepareAccept sr blk nch n s)) h]
    rw [← hn]
    refine (congrArg (respond _) (prepareAccept_idem ..)).trans ?_
    exact congrArg (fun st => respond st _) (statusPrepared_idem s.csr.status)

theorem dline_prepareAccept (sr blk : Word) (nch : Chan) (n : Nat) (s : State) (c : Chan) :
    dline (prepareAccept sr blk nch n s) c = DelayLine.reset := by
  simp [dline]

end Sys2Proof.Machine
end

/-! ## The statements about PREPARE -/

section
open Sys2Proof Sys2Proof.Machine

/-- Settles O12: operands that meet none of the tests of R133 are accepted. -/
theorem prepareSucceeds : Obligations.PrepareSucceeds := by
  intro s ra rb nch pd hport hpd hfin hpos hblk hnchPos hnchLe hdelay m n hcap
  have haccept : prepareRejected s (reg s ra) (reg s rb) nch pd = false := by
    refine Bool.eq_false_iff.mpr fun hrejected => ?_
    obtain hsr | h | hnch | ⟨hpd', hm⟩ | hn := prepareRejected_iff.mp hrejected
    · have hle := not_flt_of_fle (a := reg s ra) (b := fZero)
      rw [isNaN_of_isFinite hfin, isInf_of_isFinite hfin] at hsr
      rw [fgt, hle (by simpa using hsr)] at hpos
      cases hpos
    · exact hblk h
    · rcases hnch with rfl | hnch
      · exact absurd hnchPos (by decide)
      · omega
    · obtain ⟨hnan, hneg, hmax⟩ := hdelay hpd'
      rw [nominalDelay, if_neg hpd', hnan, hneg, hmax] at hm
      simp at hm
    · exact absurd hn (Nat.not_lt.mpr hcap)
  have hnch : nch.zeroExtend 32 = BitVec.ofNat 32 nch.toNat := BitVec.eq_of_toNat_eq (by simp)
  refine ⟨_, exec_prepare ra rb nch hport hpd, ?_⟩
  rw [prepareEffect_of_accepted haccept, ← hnch]
  refine ⟨rfl, fun c i => readWord_zeroFill s.mem, fun a hout => ?_, fun c _ => ?_,
    lfo_prepareAccept (reg s ra) (reg s rb) nch n s, rfl, rfl, rfl, rfl, rfl, rfl, rfl, rfl⟩
  · refine (readByte_zeroFill nch.toNat n s.mem a).trans ?_
    rw [inUse_eq_false_of_outside hout]
    rfl
  · have hline := dline_prepareAccept (reg s ra) (reg s rb) nch n s c
    refine ⟨congrArg DelayLine.w hline, fun k => (congrArg (fun x : DelayLine => apzGet x.apz k) hline).trans ?_⟩
    cases k <;> rfl

/-- Settles O13: the tests of R133 are those the model makes. -/
theorem prepareRejects : Obligations.PrepareRejects := by
  intro s ra rb nch pd hport hpd sr m htests st
  rw [exec_prepare ra rb nch hport hpd, prepareEffect_of_rejected (prepareRejected_iff.mpr htests)]
  rfl

/-- Settles O14: a second PREPARE meets the same tests and finds nothing more to change but the histories. -/
theorem prepareIsIdempotent : Obligations.PrepareIsIdempotent := by
  intro s t ra rb nch pd hport hpd h
  rw [exec_prepare ra rb nch hport hpd] at h
  cases h
  have hregs (r : Reg) : reg (prepareEffect (reg s ra) (reg s rb) nch pd s) r = reg s r := by
    unfold prepareEffect
    split <;> rfl
  have hports : (prepareEffect (reg s ra) (reg s rb) nch pd s).ports = s.ports := by
    unfold prepareEffect
    split <;> rfl
  have hcfg : (prepareEffect (reg s ra) (reg s rb) nch pd s).cfg = s.cfg := by
    unfold prepareEffect
    split <;> rfl
  rw [exec_prepare ra rb nch (by rw [hports, hport]) (by rwa [hcfg]), hregs, hregs, prepareEffect_idem]
  rfl

end

section
/-! Delay lines (43_delay_line.md, 45_effect_kernels.md): the commands that store and advance, the tap read as a change of the
all-pass state alone, and the kernels DLY and CHOR built from them. -/

namespace Sys2Proof.Machine

/-! ## Storing and advancing (R202 to R204, R214) -/

section
variable {i : Instr} {s : State} {c : Chan}

/-- Legality of a delay-line command without reserved fields, from the three conditions the statements name. -/
theorem command_of_delayLine (ha : i.op.onPort .a = true) (hc : i.op.onPort .c = false)
    (hchannel : delayChannel i = some c) (hneeds : i.op.needsPrepared = true) (hwf : i.wf s.cfg = true)
    (hport : s.ports.port = .a) (hch : c.toNat < s.csr.nch.toNat) (hprepared : prepared s = true)
    (e : Host.Outcome State Fault Refusal) : command i s e = e :=
  command_of_legal ((illegality_plainDelayLine_iff ha hc hchannel hneeds hwf).mpr ⟨hport, hch, hprepared⟩) e

/-- What a word stored leaves: it reads back, and every other byte is as before. -/
theorem writeWord_stores {m : Memory} (h : memoryWf m) (a : Nat) (v : Word) :
    readWord (writeWord m a v) a = v ∧ SameOutside a m (writeWord m a v) :=
  ⟨readWord_writeWord_same h a v, fun _ hb => readByte_writeWord_other m hb v⟩

end

/-! ## The tap read changes the all-pass state alone (R205, R210) -/

/-- The state with another all-pass state in channel `c`. -/
def withApz (c : Chan) (z : Apz) (s : State) : State := setDline c { dline s c with apz := z } s

/-- The all-pass state a tap read of value `v` leaves in slot `t`: ALLPASS keeps the value (R210). -/
def apzAfter (mode : Interp) (t : Slot) (v : Word) (z : Apz) : Apz := if mode = .allpass then apzSet z t v else z

theorem setDline_self (c : Chan) (s : State) : setDline c (dline s c) s = s := by simp [setDline, dline]

theorem withApz_self (c : Chan) (s : State) : withApz c (dline s c).apz s = s := setDline_self c s

@[simp] theorem dline_withApz (c : Chan) (z : Apz) (s : State) : dline (withApz c z s) c = { dline s c with apz := z } :=
  dline_setDline_same ..

@[simp] theorem withApz_withApz (c : Chan) (z y : Apz) (s : State) : withApz c z (withApz c y s) = withApz c z s := by
  rw [withApz, dline_withApz]
  simp [withApz, setDline]

theorem tapState_eq (c : Chan) (d : Word) (mode : Interp) (t : Slot) (s : State) :
    tapState c d mode t s = withApz c (apzAfter mode t (tapValue s c d mode t) (dline s c).apz) s := by
  cases mode with
  | allpass => rfl
  | _ => exact (withApz_self c s).symm

theorem tapWord_withApz (c : Chan) (z : Apz) (s : State) (k : Nat) : tapWord (withApz c z s) c k = tapWord s c k := by
  rw [tapWord, dline_withApz]
  rfl

/-- The value of a tap read depends on the all-pass state in its own slot only. -/
theorem tapValue_withApz {c : Chan} {z : Apz} {t : Slot} {s : State} (h : apzGet z t = apz s c t) (d : Word)
    (mode : Interp) : tapValue (withApz c z s) c d mode t = tapValue s c d mode t := by
  have hslot : apz (withApz c z s) c t = apz s c t := by
    rw [apz, dline_withApz]
    exact h
  cases mode <;> simp only [tapValue, tapLinear, tapAllpass, tapCubic, tapWord_withApz, hslot]

theorem apzGet_apzSet_other {t k : Slot} (h : k ≠ t) (z : Apz) (v : Word) : apzGet (apzSet z t v) k = apzGet z k := by
  cases t <;> cases k <;> simp_all [apzGet, apzSet]

theorem apzGet_apzAfter_other {t k : Slot} (h : k ≠ t) (mode : Interp) (v : Word) (z : Apz) :
    apzGet (apzAfter mode t v z) k = apzGet z k := by
  unfold apzAfter
  split
  · exact apzGet_apzSet_other h z v
  · rfl

/-- Whether a tap read is in range depends on CAP alone. -/
theorem delayInRange_congr {s u : State} (h : u.csr = s.csr) (d : Word) (mode : Interp) :
    delayInRange u d mode = delayInRange s d mode := by
  have hcap : cap u = cap s := by rw [cap, cap, h]
  unfold delayInRange
  rw [hcap]

theorem tapRead_of_inRange {s : State} {d : Word} {mode : Interp} (h : delayInRange s d mode = true) (c : Chan)
    (t : Slot) : tapRead c d mode t s =
      .ok (tapValue s c d mode t, withApz c (apzAfter mode t (tapValue s c d mode t) (dline s c).apz) s) := by
  rw [tapRead, if_pos h, tapState_eq]

/-- A tap read from another all-pass state, its own slot the same: the same value, kept in its slot. -/
theorem tapRead_withApz {s : State} {d : Word} {mode : Interp} (h : delayInRange s d mode = true) {c : Chan} {t : Slot}
    {z : Apz} (hslot : apzGet z t = apz s c t) :
    tapRead c d mode t (withApz c z s) =
      .ok (tapValue s c d mode t, withApz c (apzAfter mode t (tapValue s c d mode t) z) s) := by
  rw [tapRead_of_inRange (s := withApz c z s) ((delayInRange_congr rfl d mode).trans h), tapValue_withApz hslot, withApz_withApz,
    dline_withApz]

theorem tapRead_of_stop {s : State} {d : Word} {mode : Interp} (h : delayInRange s d mode = false)
    (hstop : s.cfg.openPoints = .stop) (c : Chan) (t : Slot) : tapRead c d mode t s = .error .delayRange := by
  simp only [tapRead, h, hstop, Bool.false_eq_true, if_false]

theorem tapRead_of_run {s : State} {d : Word} {mode : Interp} (h : delayInRange s d mode = false)
    (hrun : s.cfg.openPoints = .run) (c : Chan) (t : Slot) :
    tapRead c d mode t s = .ok (unspecWord s, tapUnspecState c mode t s) := by
  simp only [tapRead, h, hrun, Bool.false_eq_true, if_false]

/-! ## POP (R213) -/

theorem exec_pop {s : State} {c : Chan} {tap : BitVec 2} (rd ra : Reg) (m : Interp) (hport : s.ports.port = .a)
    (htap : tap ≠ 3) (hch : c.toNat < s.csr.nch.toNat) (hprepared : prepared s = true) :
    exec (.pop rd ra c m tap) s = popEffect rd (tapRead c (reg s ra) m (slotOf tap) s) :=
  command_of_legal (illegality_pop_iff.mpr ⟨hport, htap, hch, hprepared⟩) _

/-! ## The kernels (45_effect_kernels.md R264, R266) -/

/-- Advancing writes the index and keeps the all-pass state the taps left. -/
theorem advance_withApz (c : Chan) (z : Apz) (s : State) :
    advance c (withApz c z s) = setDline c { w := ((dline s c).w + 1) % cap s, apz := z } s := by
  rw [advance, dline_withApz]
  simp [withApz, setDline, cap]

theorem storeSample_withApz (c : Chan) (v : Word) (z : Apz) (s : State) :
    storeSample c v (withApz c z s) = withApz c z (storeSample c v s) := by
  rw [storeSample, storeAddr, dline_withApz]
  rfl

/-- The taps of the chorus, each in its slot, from any all-pass state that has not touched that slot. -/
theorem chorTap_of_inRange {s : State} {c : Chan} {l : Word} {j : Nat} {t : Slot} {z : Apz}
    (h : delayInRange s (chorDelay s l j) (kernelInterp s) = true) (hslot : apzGet z t = apz s c t) :
    chorTap c l j t (withApz c z s) =
      .ok (tapValue s c (chorDelay s l j) (kernelInterp s) t,
        withApz c (apzAfter (kernelInterp s) t (tapValue s c (chorDelay s l j) (kernelInterp s) t) z) s) :=
  tapRead_withApz h hslot

/-- The value of tap j of the chorus, read from the state `s`. -/
def chorTapValue (s : State) (c : Chan) (l : Word) (j : Nat) (t : Slot) : Word :=
  tapValue s c (chorDelay s l j) (kernelInterp s) t

/-- The sum of the first n taps (R266). -/
def chorTapSum (s : State) (c : Chan) (l : Word) (n : Nat) : Word :=
  if n = 1 then chorTapValue s c l 1 .t0
  else if n = 2 then fadd (chorTapValue s c l 1 .t0) (chorTapValue s c l 2 .t1)
  else fadd (fadd (chorTapValue s c l 1 .t0) (chorTapValue s c l 2 .t1)) (chorTapValue s c l 3 .t2)

/-- The all-pass state the first n taps leave: in mode ALLPASS tap j in slot j - 1. -/
def chorApz (s : State) (c : Chan) (l : Word) (n : Nat) : Apz :=
  if kernelInterp s = .allpass then
    { t0 := chorTapValue s c l 1 .t0
      t1 := if 2 ≤ n then chorTapValue s c l 2 .t1 else (dline s c).apz.t1
      t2 := if n = 3 then chorTapValue s c l 3 .t2 else (dline s c).apz.t2 }
  else (dline s c).apz

/-- With every tap in range the chorus reads them one after the other, and no read disturbs the next. -/
theorem chorSum_of_inRange {s : State} (c : Chan) (l : Word) (h1 : 1 ≤ chorTaps s) (h3 : chorTaps s ≤ 3)
    (hrange : ∀ j, 1 ≤ j → j ≤ chorTaps s → delayInRange s (chorDelay s l j) (kernelInterp s) = true) :
    chorSum c l s = .ok (chorTapSum s c l (chorTaps s), withApz c (chorApz s c l (chorTaps s)) s) := by
  generalize hz : (dline s c).apz = z
  have hself : withApz c z s = s := hz ▸ withApz_self c s
  have hslot (t : Slot) : apzGet z t = apz s c t := by rw [← hz, apz]
  generalize hv1 : chorTapValue s c l 1 .t0 = v1
  generalize hv2 : chorTapValue s c l 2 .t1 = v2
  generalize hv3 : chorTapValue s c l 3 .t2 = v3
  have hread1 : chorTap c l 1 .t0 s = .ok (v1, withApz c (apzAfter (kernelInterp s) .t0 v1 z) s) := by
    have h := chorTap_of_inRange (z := z) (hrange 1 le_rfl h1) (hslot .t0)
    rwa [hself, ← chorTapValue, hv1] at h
  have hread2 (h2 : 2 ≤ chorTaps s) : chorTap c l 2 .t1 (withApz c (apzAfter (kernelInterp s) .t0 v1 z) s) =
      .ok (v2, withApz c (apzAfter (kernelInterp s) .t1 v2 (apzAfter (kernelInterp s) .t0 v1 z)) s) := by
    have h := chorTap_of_inRange (hrange 2 (by decide) h2)
      ((apzGet_apzAfter_other (t := .t0) (k := .t1) (by decide) (kernelInterp s) v1 z).trans (hslot .t1))
    rwa [← chorTapValue, hv2] at h
  have hread3 (h3 : 3 ≤ chorTaps s) :
      chorTap c l 3 .t2 (withApz c (apzAfter (kernelInterp s) .t1 v2 (apzAfter (kernelInterp s) .t0 v1 z)) s) =
        .ok (v3, withApz c (apzAfter (kernelInterp s) .t2 v3
          (apzAfter (kernelInterp s) .t1 v2 (apzAfter (kernelInterp s) .t0 v1 z))) s) := by
    have h := chorTap_of_inRange (hrange 3 (by decide) h3)
      (((apzGet_apzAfter_other (t := .t1) (k := .t2) (by decide) (kernelInterp s) v2 _).trans
        (apzGet_apzAfter_other (t := .t0) (k := .t2) (by decide) (kernelInterp s) v1 z)).trans (hslot .t2))
    rwa [← chorTapValue, hv3] at h
  generalize hz1 : apzAfter (kernelInterp s) .t0 v1 z = z1 at hread1 hread2 hread3
  generalize hz2 : apzAfter (kernelInterp s) .t1 v2 z1 = z2 at hread2 hread3
  generalize hz3 : apzAfter (kernelInterp s) .t2 v3 z2 = z3 at hread3
  simp only [chorTapSum, chorApz, hv1, hv2, hv3, hz]
  obtain hn | hn | hn : chorTaps s = 1 ∨ chorTaps s = 2 ∨ chorTaps s = 3 := by omega
  · have hsum : chorSum c l s = .ok (v1, withApz c z1 s) := by simp [chorSum, hread1, hn]
    rw [hsum, hn, ← hz1]
    simp [apzAfter, apzSet]
  · have hsum : chorSum c l s = .ok (fadd v1 v2, withApz c z2 s) := by simp [chorSum, hread1, hread2, hn]
    rw [hsum, hn, ← hz2, ← hz1]
    unfold apzAfter
    split <;> rfl
  · have hsum : chorSum c l s = .ok (fadd (fadd v1 v2) v3, withApz c z3 s) := by
      simp [chorSum, hread1, hread2, hread3, hn]
    rw [hsum, hn, ← hz3, ← hz2, ← hz1]
    unfold apzAfter
    split <;> rfl

/-! ## The points at which the kernels and POP stop (60_exceptions.md R296) -/

/-- What a tap read decides on is the same before and after other taps. -/
theorem chorTap_congr {s u : State} (hcsr : u.csr = s.csr) (l : Word) (j : Nat) :
    delayInRange u (chorDelay u l j) (kernelInterp u) = delayInRange s (chorDelay s l j) (kernelInterp s) := by
  rw [delayInRange_congr hcsr]
  simp only [chorDelay, chorFactor, chorTaps, kernelInterp, hcsr]

/-- The chorus stops at a tap out of range, where the model is to stop, and with no other fault. -/
theorem chorSum_error {c : Chan} {l : Word} {s : State} {f : Fault} (h : chorSum c l s = .error f) :
    f = .delayRange ∧ s.cfg.openPoints = .stop ∧
      ∃ j, 1 ≤ j ∧ j ≤ 3 ∧ delayInRange s (chorDelay s l j) (kernelInterp s) = false := by
  have hread {u : State} {j : Nat} {t : Slot} (hframe : TapFrame s u) (h1 : 1 ≤ j) (h3 : j ≤ 3)
      (herror : chorTap c l j t u = .error f) : f = .delayRange ∧ s.cfg.openPoints = .stop ∧
        ∃ j, 1 ≤ j ∧ j ≤ 3 ∧ delayInRange s (chorDelay s l j) (kernelInterp s) = false := by
    obtain ⟨hf, hrange, hstop⟩ := tapRead_error herror
    rw [chorTap_congr hframe.csr_eq] at hrange
    rw [hframe] at hstop
    exact ⟨hf, hstop, j, h1, h3, hrange⟩
  unfold chorSum at h
  split at h
  next h1 => cases h; exact hread (u := s) rfl le_rfl (by decide) h1
  next h1 =>
    have hfirst : TapFrame _ _ := tapRead_frame h1
    split at h
    next => cases h
    next =>
      split at h
      next h2 => cases h; exact hread hfirst (by decide) (by decide) h2
      next h2 =>
        split at h
        next => cases h
        next =>
          split at h
          next h3 => cases h; exact hread (hfirst.trans (tapRead_frame h2)) (by decide) le_rfl h3
          next => cases h

/-- Where the model is to stop, a chorus that answers had all its taps in range. -/
theorem inRange_of_chorSum_ok {c : Chan} {l : Word} {s : State} {j : Nat} {r : Word × State}
    (h : chorSum c l s = .ok r) (hstop : s.cfg.openPoints = .stop) (h1 : 1 ≤ j) (hj : j ≤ chorTaps s)
    (h3 : chorTaps s ≤ 3) : delayInRange s (chorDelay s l j) (kernelInterp s) = true := by
  have hread {u v : State} {k : Nat} {t : Slot} {w : Word} (hframe : TapFrame s u)
      (hok : chorTap c l k t u = .ok (w, v)) : delayInRange s (chorDelay s l k) (kernelInterp s) = true := by
    obtain ⟨hk, -⟩ | ⟨-, hrun, -⟩ := tapRead_ok hok
    · rwa [chorTap_congr hframe.csr_eq] at hk
    · rw [hframe] at hrun
      cases hstop.symm.trans hrun
  unfold chorSum at h
  split at h
  next => cases h
  next hok1 =>
    have hrange1 := hread (u := s) rfl hok1
    have hfirst : TapFrame _ _ := tapRead_frame hok1
    split at h
    next =>
      obtain rfl : j = 1 := by omega
      exact hrange1
    next =>
      split at h
      next => cases h
      next hok2 =>
        have hrange2 := hread hfirst hok2
        split at h
        next =>
          obtain rfl | rfl : j = 1 ∨ j = 2 := by omega
          · exact hrange1
          · exact hrange2
        next =>
          split at h
          next => cases h
          next hok3 =>
            obtain rfl | rfl | rfl : j = 1 ∨ j = 2 ∨ j = 3 := by omega
            · exact hrange1
            · exact hrange2
            · exact hread (hfirst.trans (tapRead_frame hok2)) hok3

theorem chorSum_of_stop {c : Chan} {l : Word} {s : State} {j : Nat} (hstop : s.cfg.openPoints = .stop) (h1 : 1 ≤ j)
    (hj : j ≤ chorTaps s) (h3 : chorTaps s ≤ 3)
    (hrange : delayInRange s (chorDelay s l j) (kernelInterp s) = false) : chorSum c l s = .error .delayRange := by
  cases h : chorSum c l s with
  | error f => rw [(chorSum_error h).1]
  | ok r => exact absurd (inRange_of_chorSum_ok h hstop h1 hj h3) (ne_true_of_eq_false hrange)

end Sys2Proof.Machine
end

/-! ## The statements about delay lines and their kernels -/

section
open Sys2Proof Sys2Proof.Machine

/-- Settles O32: each of the four stores a word, advances the index, or does both. -/
theorem delayLineWrites : Obligations.DelayLineWrites := by
  intro s c ra rb rc hport hch hprepared hmem a adv fb
  have hexec {i : Instr} (ha : i.op.onPort .a = true) (hc : i.op.onPort .c = false) (hchannel : delayChannel i = some c)
      (hneeds : i.op.needsPrepared = true) (hwf : i.wf s.cfg = true) (e : Host.Outcome State Fault Refusal) :
      command i s e = e := command_of_delayLine ha hc hchannel hneeds hwf hport hch hprepared e
  exact ⟨⟨_, hexec rfl rfl rfl rfl rfl _, writeWord_stores hmem a _⟩, hexec rfl rfl rfl rfl rfl _,
    ⟨_, hexec rfl rfl rfl rfl rfl _, writeWord_stores hmem a _⟩,
    ⟨_, hexec rfl rfl rfl rfl rfl _, writeWord_stores hmem a _⟩⟩

/-- Settles O33: the modes of a tap read as the rules write them. -/
theorem tapReadValues : Obligations.TapReadValues := by
  intro s c d k x i fr
  refine ⟨rfl, fun hwhole => ?_, fun hpart => ?_⟩
  · have hint : delayIntegral d = true := hwhole
    simp only [tapValue, hint, if_true]
    exact ⟨rfl, rfl, rfl⟩
  · have hint : delayIntegral d = false := hpart
    simp only [tapValue, hint, Bool.false_eq_true, if_false]
    exact ⟨rfl, rfl, rfl⟩

/-- Settles O34: a tap read in range has a value, and changes the all-pass state in mode ALLPASS alone. -/
theorem popReads : Obligations.PopReads := by
  intro s rd ra c m tap hport htap hch hprepared hrange v z
  rw [exec_pop rd ra m hport htap hch hprepared, tapRead, if_pos hrange]
  cases m <;> rfl

/-- Settles O35: the model's test is the conjunction of (a) with the bound of the mode. -/
theorem delayPreconditions : Obligations.DelayPreconditions := by
  intro s d i whole a
  have hcap : cap s = s.csr.cap.toNat := rfl
  have hnearest : f2u (frint d) < s.csr.cap.toNat ↔ f2u (frint d) ≤ s.csr.cap.toNat - 1 ∧ 0 < s.csr.cap.toNat := by
    omega
  refine ⟨?_, ?_, ?_, ?_⟩ <;>
    simp only [delayInRange, hcap, Bool.and_eq_true, Bool.or_eq_true, decide_eq_true_eq, and_assoc, hnearest, a] <;>
    rfl

/-- Settles O44: the tap read leaves the index where it was, so the write-back goes to the word just written. -/
theorem dlyComputes : Obligations.DlyComputes := by
  intro s rd ra c hport hch hprepared hmem hrange dry tap wet y
  have hread := tapRead_of_inRange (s := storeSample c dry s) hrange c .t0
  refine ⟨writeWord (writeWord s.mem (storeAddr s c) dry) (storeAddr s c) (fadd dry wet), ?_, ?_, ?_⟩
  · refine (command_of_delayLine rfl rfl rfl rfl rfl hport hch hprepared _).trans ?_
    rw [dlyEffect, hread]
    dsimp only [dlyFinish]
    rw [storeSample_withApz, advance_withApz]
    rfl
  · exact readWord_writeWord_same (memoryWf_writeWord hmem _ dry) _ _
  · exact fun b hb => (readByte_writeWord_other _ hb _).trans (readByte_writeWord_other s.mem hb dry)

/-- Settles O45: the taps are read one after the other from the state with the dry sample, and no read disturbs the next. -/
theorem chorComputes : Obligations.ChorComputes := by
  intro s rd ra rb c n hport hch hprepared hmem hn h1 h3 mode dry g d hrange s1 t1 t2 t3 sum wet y z
  subst hn
  have hsum := chorSum_of_inRange (s := s1) c (reg s rb) h1 h3 hrange
  refine ⟨writeWord s.mem (storeAddr s c) dry, ?_, writeWord_stores hmem _ dry⟩
  refine (command_of_delayLine rfl rfl rfl rfl rfl hport hch hprepared _).trans ?_
  rw [chorEffect, hsum]
  dsimp only [chorFinish]
  rw [advance_withApz]
  rfl

end

section
/-! Where commands stop (60_exceptions.md R296), and why no step stops where the model goes on as the hardware does. -/

namespace Sys2Proof.Machine

/-! ## What stops a single effect -/

theorem popEffect_fault {rd : Reg} {c : Chan} {d : Word} {m : Interp} {t : Slot} {s : State} {f : Fault}
    (h : popEffect rd (tapRead c d m t s) = .fault f) :
    f = .delayRange ∧ delayInRange s d m = false ∧ s.cfg.openPoints = .stop := by
  unfold popEffect at h
  split at h
  next hread => cases h; exact tapRead_error hread
  next => cases h

theorem dlyEffect_fault {rd : Reg} {c : Chan} {dry : Word} {s : State} {f : Fault}
    (h : dlyEffect rd c dry s = .fault f) :
    f = .delayRange ∧ delayInRange s s.csr.kdelay (kernelInterp s) = false ∧ s.cfg.openPoints = .stop := by
  unfold dlyEffect at h
  split at h
  next hread =>
    cases h
    obtain ⟨hf, hrange, hstop⟩ := tapRead_error hread
    rw [delayInRange_congr (storeSample_csr c dry s)] at hrange
    exact ⟨hf, hrange, hstop⟩
  next => cases h

theorem chorEffect_fault {rd : Reg} {c : Chan} {dry l : Word} {s : State} {f : Fault}
    (h : chorEffect rd c dry l s = .fault f) :
    f = .delayRange ∧ s.cfg.openPoints = .stop ∧
      ∃ j, 1 ≤ j ∧ j ≤ 3 ∧ delayInRange s (chorDelay s l j) (kernelInterp s) = false := by
  unfold chorEffect at h
  split at h
  next hsum => cases h; exact chorSum_error (s := storeSample c dry s) hsum
  next => cases h

theorem modeNotDesigned_iff {s : State} :
    modeNotDesigned s = true ↔ s.cfg.unspecMode = some s.csr.mode.toNat ∧ s.cfg.openPoints = .stop := by
  simp [modeNotDesigned]

theorem shapeEffect_refused {rd : Reg} {x : Word} {s : State} {r : Refusal} (h : shapeEffect rd x s = .refused r) :
    r = .unspecMode ∧ s.cfg.unspecMode = some s.csr.mode.toNat ∧ s.cfg.openPoints = .stop := by
  unfold shapeEffect at h
  split at h
  next hmode => cases h; exact ⟨rfl, modeNotDesigned_iff.mp hmode⟩
  next => cases h

/-! ## What stops a command -/

theorem exec_fault {i : Instr} {s : State} {f : Fault} (h : exec i s = .fault f) :
    s.cfg.openPoints = .stop ∧ illegality i s = none ∧
      ((f = .nonfinitePhase ∧ ∃ rd l, i = .lnext rd l ∧ isFinite (advancedPhase s l) = false) ∨
        (f = .delayRange ∧
          ((∃ rd ra c m tap, i = .pop rd ra c m tap ∧ delayInRange s (reg s ra) m = false) ∨
            (∃ rd ra c, i = .dly rd ra c ∧ delayInRange s s.csr.kdelay (kernelInterp s) = false) ∨
            ∃ rd ra rb c j, i = .chor rd ra rb c ∧ 1 ≤ j ∧ j ≤ 3 ∧
              delayInRange s (chorDelay s (reg s rb) j) (kernelInterp s) = false))) := by
  cases i with
  | lnext rd l =>
    obtain ⟨hlegal, heffect⟩ := command_fault h
    split at heffect
    next hopen =>
      cases heffect
      simp only [Bool.and_eq_true, Bool.not_eq_true', beq_iff_eq] at hopen
      exact ⟨hopen.2, hlegal, .inl ⟨rfl, rd, l, rfl, hopen.1⟩⟩
    next => cases heffect
  | pop rd ra c m tap =>
    obtain ⟨hlegal, heffect⟩ := command_fault h
    obtain ⟨hf, hrange, hstop⟩ := popEffect_fault heffect
    exact ⟨hstop, hlegal, .inr ⟨hf, .inl ⟨rd, ra, c, m, tap, rfl, hrange⟩⟩⟩
  | dly rd ra c =>
    obtain ⟨hlegal, heffect⟩ := command_fault h
    obtain ⟨hf, hrange, hstop⟩ := dlyEffect_fault heffect
    exact ⟨hstop, hlegal, .inr ⟨hf, .inr (.inl ⟨rd, ra, c, rfl, hrange⟩)⟩⟩
  | chor rd ra rb c =>
    obtain ⟨hlegal, heffect⟩ := command_fault h
    obtain ⟨hf, hstop, j, h1, h3, hrange⟩ := chorEffect_fault heffect
    exact ⟨hstop, hlegal, .inr ⟨hf, .inr (.inr ⟨rd, ra, rb, c, j, rfl, h1, h3, hrange⟩)⟩⟩
  | shape rd ra | dist rd ra =>
    obtain ⟨-, heffect⟩ := command_fault h
    unfold shapeEffect at heffect
    split at heffect <;> cases heffect
  | _ => cases (command_fault h).2

theorem exec_refused {i : Instr} {s : State} {r : Refusal} (h : exec i s = .refused r) :
    r = .unspecMode ∧ s.cfg.openPoints = .stop ∧ illegality i s = none ∧ (i.op = .shape ∨ i.op = .dist) ∧
      s.cfg.unspecMode = some s.csr.mode.toNat := by
  cases i with
  | shape rd ra =>
    obtain ⟨hlegal, heffect⟩ := command_refused h
    obtain ⟨hr, hmode, hstop⟩ := shapeEffect_refused heffect
    exact ⟨hr, hstop, hlegal, .inl rfl, hmode⟩
  | dist rd ra =>
    obtain ⟨hlegal, heffect⟩ := command_refused h
    obtain ⟨hr, hmode, hstop⟩ := shapeEffect_refused heffect
    exact ⟨hr, hstop, hlegal, .inr rfl, hmode⟩
  | lnext rd l =>
    obtain ⟨-, heffect⟩ := command_refused h
    split at heffect <;> cases heffect
  | pop rd ra c m tap =>
    obtain ⟨-, heffect⟩ := command_refused h
    unfold popEffect at heffect
    split at heffect <;> cases heffect
  | dly rd ra c =>
    obtain ⟨-, heffect⟩ := command_refused h
    unfold dlyEffect at heffect
    split at heffect <;> cases heffect
  | chor rd ra rb c =>
    obtain ⟨-, heffect⟩ := command_refused h
    unfold chorEffect at heffect
    split at heffect <;> cases heffect
  | _ => cases (command_refused h).2

/-- Where the model goes on, every command answers a next state. -/
theorem exec_next_of_run {i : Instr} {s : State} (hrun : s.cfg.openPoints = .run) : ∃ t, exec i s = .next t := by
  cases h : exec i s with
  | next t => exact ⟨t, rfl⟩
  | fault f => cases hrun.symm.trans (exec_fault h).1
  | refused r => cases hrun.symm.trans (exec_refused h).2.1

theorem step_next_of_run {s : State} (hrun : s.cfg.openPoints = .run) : ∃ t, step s = .next t := by
  have hserves := nextAction_serves s
  unfold step
  generalize nextAction s = act at hserves
  cases act with
  | command pkt u =>
    have hcfg : u.cfg = s.cfg := by rw [show Served s u from hserves]
    dsimp only
    split
    next => exact exec_next_of_run (hcfg ▸ hrun)
    next => exact ⟨_, rfl⟩
  | _ => exact ⟨_, rfl⟩

end Sys2Proof.Machine
end

/-! ## The statements about stopping -/

section
open Sys2Proof Sys2Proof.Machine

/-- Settles O57: of the effects only LNEXT's, the tap reads and the shaper can stop. -/
theorem stopsOnlyAtOpenPoints : Obligations.StopsOnlyAtOpenPoints := fun _ _ =>
  ⟨fun _ => exec_fault, fun _ => exec_refused⟩

/-- Settles O58: every stop needs the configuration's `stop`, which no port service changes. -/
theorem runningMachineNeverStops : Obligations.RunningMachineNeverStops := fun _ => step_next_of_run

/-- Settles O59: at each point the test that precedes the stop is met. -/
theorem openPointsStop : Obligations.OpenPointsStop := by
  intro s rd ra rb l c m tap hport hstop
  refine ⟨fun hprepared hl hphase => ?_, fun hprepared hch => ⟨fun htap hrange => ?_, fun hrange => ?_,
    fun j h1 hj h3 hrange => ?_⟩, fun hmode => ?_⟩
  · rw [exec_lnext hport hl hprepared]
    simp [hphase, hstop]
  · rw [exec_pop rd ra m hport htap hch hprepared, tapRead_of_stop hrange hstop]
    rfl
  · refine (command_of_delayLine rfl rfl rfl rfl rfl hport hch hprepared _).trans ?_
    rw [dlyEffect, tapRead_of_stop (s := storeSample c (reg s ra) s) hrange hstop]
  · refine (command_of_delayLine rfl rfl rfl rfl rfl hport hch hprepared _).trans ?_
    rw [chorEffect, chorSum_of_stop (s := storeSample c (reg s ra) s) hstop h1 hj h3 hrange]
  · have heffect (x : Word) : shapeEffect rd x s = .refused .unspecMode := if_pos (modeNotDesigned_iff.mpr ⟨hmode, hstop⟩)
    exact ⟨(exec_shape rd ra hport).trans (heffect _),
      (command_of_legal ((illegality_plain_iff rfl rfl rfl rfl rfl).mpr hport) _).trans (heffect _)⟩

/-- Settles O60: the remainder of a phase that is not finite, and the waveform of it, are the canonical NaN; a tap read out
of range takes free values. -/
theorem openPointsRun : Obligations.OpenPointsRun := by
  intro s rd ra l c m tap hport hrun hprepared
  refine ⟨fun hl hphase => ?_, fun hch htap hrange => ?_⟩
  · have hwrapped : wrappedPhase s l = qNaN := fmodt_of_not_finite hphase twoPi
    have houtput : lfoOutput s l = qNaN := by
      rw [lfoOutput, hwrapped]
      exact waveFn_of_not_finite _ _ (by decide)
    rw [exec_lnext_of_runs rd hport hl hprepared (.inl hrun), lnextEffect, hwrapped, houtput]
    rfl
  · rw [exec_pop rd ra m hport htap hch hprepared, tapRead_of_run hrange hrun]
    refine ⟨unspecWord s, unspecWord (takeUnspec s), (tapUnspecState c m (slotOf tap) s).unspecs, ?_⟩
    cases m <;> rfl

end

section
/-! What a step does (20_memory.md R82, 30_encoding.md R101): which port moves, and what it takes. -/

namespace Sys2Proof.Machine

variable {s : State}

/-! ## The A-port moves -/

theorem nextAction_a_alone {pkt : Packet} {rest : List Packet} (hrst : s.ports.rst = false)
    (ha : s.ports.aCmds = pkt :: rest) (hc : cReady s = false) :
    nextAction s = .command pkt { s with ports := { s.ports with aCmds := rest, port := .a } } := by
  simp [nextAction, nextPort, grant, takeA, aReady, hrst, ha, hc]

theorem nextAction_a_contested {pkt : Packet} {rest : List Packet} (hrst : s.ports.rst = false)
    (ha : s.ports.aCmds = pkt :: rest) (hc : cReady s = true) (hturn : s.ports.turn = .a) :
    nextAction s = .command pkt
      { s with
        ports := { s.ports with
          aCmds := rest, port := .a, turn := if Config.servesAFirst s.grants then .a else .c }
        grants := s.grants + 1 } := by
  simp [nextAction, nextPort, grant, takeA, aReady, hrst, ha, hc, hturn]

/-! ## The C-port moves -/

theorem nextAction_c_command {pkt : Packet} {rest : List Packet} (hserved : CPortServed s)
    (hc : s.ports.cCmds = pkt :: rest) (hidle : s.ports.stream = .idle) :
    nextAction s = .command pkt { servingC s with ports := { (servingC s).ports with cCmds := rest } } := by
  have hready : cReady s = true := by simp [cReady, hidle, hc]
  rw [nextAction_of_cPortServed hserved hready, takeC]
  simp [hidle, hc]

theorem nextAction_enc {rest : List StreamByte} (hserved : CPortServed s) (henc : s.ports.stream = .enc rest)
    (hroom : 0 < s.ports.soRoom) : nextAction s = .encGoesOn rest (servingC s) := by
  have hready : cReady s = true := by simp [cReady, henc, hroom]
  rw [nextAction_of_cPortServed hserved hready, takeC]
  simp [henc]

theorem nextAction_dec {n : Nat} {pending : List Byte} (hserved : CPortServed s)
    (hdec : s.ports.stream = .dec n pending) (hsi : s.ports.si ≠ []) :
    nextAction s = .decGoesOn n pending (servingC s) := by
  have hready : cReady s = true := by simp [cReady, hdec, hsi]
  rw [nextAction_of_cPortServed hserved hready, takeC]
  simp [hdec]

/-- With nothing the A-port presents and a C-port that cannot move a step is idle (60_exceptions.md R304). -/
theorem nextAction_idle (hrst : s.ports.rst = false) (ha : s.ports.aCmds = []) (hc : cReady s = false) :
    nextAction s = .idle := by
  simp [nextAction, nextPort, aReady, hrst, ha, hc]

theorem nextAction_reset (hrst : s.ports.rst = true) : nextAction s = .reset := by simp [nextAction, hrst]

/-! ## The step of each action -/

theorem step_of_decoded {t : State} {pkt : Packet} {i : Instr} (haction : nextAction s = .command pkt t)
    (hdecode : decode pkt = .ok i) : step s = exec i t := by
  simp only [step, haction, hdecode]

theorem step_enc {rest : List StreamByte} (hserved : CPortServed s) (henc : s.ports.stream = .enc rest)
    (hroom : 0 < s.ports.soRoom) : step s = .next (encContinue rest (servingC s)) := by
  simp only [step, nextAction_enc hserved henc hroom]

theorem step_dec {n : Nat} {pending : List Byte} (hserved : CPortServed s) (hdec : s.ports.stream = .dec n pending)
    (hsi : s.ports.si ≠ []) : step s = .next (decContinue n pending (servingC s)) := by
  simp only [step, nextAction_dec hserved hdec hsi]

theorem step_idle (hrst : s.ports.rst = false) (ha : s.ports.aCmds = []) (hc : cReady s = false) :
    step s = .next s := by
  simp only [step, nextAction_idle hrst ha hc]

theorem step_reset (hrst : s.ports.rst = true) : step s = .next (takeReset s) := by
  simp only [step, nextAction_reset hrst]

/-- Serving the C-port while the A-port presents nothing only names the port. -/
theorem servingC_alone (ha : s.ports.aCmds = []) : servingC s = { s with ports := { s.ports with port := .c } } := by
  simp [servingC, ha]

theorem servingC_contested (ha : s.ports.aCmds ≠ []) :
    servingC s = { s with
      ports := { s.ports with port := .c, turn := if Config.servesAFirst s.grants then .a else .c }
      grants := s.grants + 1 } := by
  simp [servingC, ha]

end Sys2Proof.Machine
end

/-! ## The statements about steps -/

section
open Sys2Proof Sys2Proof.Machine

/-- Settles O5: the four ways a port takes a packet. -/
theorem stepRunsDecodedCommand : Obligations.StepRunsDecodedCommand := by
  intro s pkt rest i hrst hdecode
  refine ⟨fun ha hc => step_of_decoded (nextAction_a_alone hrst ha hc) hdecode,
    fun ha hc hturn => step_of_decoded (nextAction_a_contested hrst ha hc hturn) hdecode,
    fun hc hidle ha => ?_, fun hc hidle ha hturn => ?_⟩
  · rw [step_of_decoded (nextAction_c_command ⟨hrst, .inl ha⟩ hc hidle) hdecode, servingC_alone ha]
  · rw [step_of_decoded (nextAction_c_command ⟨hrst, .inr hturn⟩ hc hidle) hdecode, servingC_contested ha]

/-- Settles O6: reset, a packet that is no command on either port, a transfer that goes on, and nothing to do. -/
theorem stepOtherwise : Obligations.StepOtherwise := by
  intro s
  refine ⟨fun hrst => ?_, fun hrst pkt rest e hdecode ha => ⟨fun hc => ?_, fun hc hturn => ?_⟩, fun hserved => ?_,
    fun hrst ha => ?_⟩
  · refine ⟨_, step_reset hrst, rfl, fun r => ?_, rfl, fun p _ => param_resetWith s.cfg p, fun l => ?_, fun c => ?_, rfl,
      rfl⟩
    · show (Vector.replicate 8 (0 : Word))[r.toNat] = 0
      simp
    · have hlfo : lfo (takeReset s) l = Lfo.reset := lfo_resetWith s.cfg l
      rw [hlfo]
      exact ⟨rfl, rfl, rfl⟩
    · have hline : dline (takeReset s) c = DelayLine.reset := dline_resetWith s.cfg c
      rw [hline]
      refine ⟨rfl, fun k => ?_⟩
      rw [apz, hline]
      cases k <;> rfl
  · exact step_of_undecoded (nextAction_a_alone hrst ha hc) hdecode
  · exact step_of_undecoded (nextAction_a_contested hrst ha hc hturn) hdecode
  · exact ⟨fun pkt rest e hdecode hc hidle => step_of_undecoded (nextAction_c_command hserved hc hidle) hdecode,
      fun rest => step_enc hserved, fun n pending => step_dec hserved⟩
  · exact ⟨fun hidle hc => step_idle hrst ha (by simp [cReady, hidle, hc]),
      fun rest henc hroom => step_idle hrst ha (by simp [cReady, henc, hroom]),
      fun n pending hdec hsi => step_idle hrst ha (by simp [cReady, hdec, hsi])⟩

end

section
/-! The binary32 arithmetic case by case (00_scope.md R12, R13): what each primitive gives for finite operands, for
infinities, for zeros and for a NaN. -/

namespace Sys2Proof.Machine

/-! ## Zeros, ones and infinities -/

theorem f32Val_of_isZero {a : Word} (h : isZero a = true) : f32Val a = 0 := by
  have := natAbs_f32Val a
  rw [isZero_iff.mp h] at this
  omega

/-- The sign of a value that is not zero is its sign bit. -/
theorem decide_f32Val_neg {a : Word} (h : f32Mag a ≠ 0) : decide (f32Val a < 0) = f32Neg a := by
  cases hneg : f32Neg a with
  | true => simpa [f32Val_of_neg hneg] using Nat.pos_of_ne_zero h
  | false => simp [f32Val_of_nonneg hneg]

theorem f32Mag_fOne : f32Mag fOne = 2 ^ 149 := by decide +kernel

theorem isFinite_fOne : isFinite fOne = true := by decide

@[simp] theorem signOf_fOne (a : Word) : signOf a fOne = f32Neg a := by
  have : f32Neg fOne = false := by decide
  simp [signOf, this]

theorem signOf_comm (a b : Word) : signOf a b = signOf b a := Bool.xor_comm _ _

/-- The rounded zero is the zero of the sign asked for. -/
theorem fround_zero (neg : Bool) (d : Nat) : fround neg 0 d = f32Pack neg 0 := by
  simp [fround, roundMag, divNearestEven]

theorem f32Inf_signOf (a b : Word) :
    f32Inf (signOf a b) = if f32Neg a = f32Neg b then 0x7F800000 else 0xFF800000 := by
  cases ha : f32Neg a <;> cases hb : f32Neg b <;> simp [signOf, ha, hb, f32Inf, f32Pack]

theorem f32Pack_signOf_zero (a b : Word) :
    f32Pack (signOf a b) 0 = if f32Neg a = f32Neg b then 0x00000000 else 0x80000000 := by
  cases ha : f32Neg a <;> cases hb : f32Neg b <;> simp [signOf, ha, hb, f32Pack]

/-! ## A NaN operand gives the canonical NaN (R13) -/

section
variable {a b : Word}

theorem fadd_of_nan (h : isNaN a = true ∨ isNaN b = true) : fadd a b = qNaN := by simp [fadd, h]

theorem fsub_of_nan (h : isNaN a = true ∨ isNaN b = true) : fsub a b = qNaN :=
  fadd_of_nan (by rwa [isNaN_fneg])

theorem fmul_of_nan (h : isNaN a = true ∨ isNaN b = true) : fmul a b = qNaN := by simp [fmul, h]

theorem fdiv_of_nan (h : isNaN a = true ∨ isNaN b = true) : fdiv a b = qNaN := by simp [fdiv, h]

/-! ## Finite operands: one rounding (R12) -/

/-- The sign of a finite sum: an exact zero is -0.0 only where both operands are negative. -/
def sumNeg (a b : Word) : Bool :=
  if f32Val a + f32Val b = 0 then f32Neg a && f32Neg b else decide (f32Val a + f32Val b < 0)

theorem fadd_of_finite (ha : isFinite a = true) (hb : isFinite b = true) :
    fadd a b = fround (sumNeg a b) (f32Val a + f32Val b).natAbs 1 := by
  simp only [fadd, isNaN_of_isFinite ha, isNaN_of_isFinite hb, isInf_of_isFinite ha, isInf_of_isFinite hb, sumNeg,
    Bool.or_self, Bool.false_eq_true, if_false]
  split
  next hzero => rw [hzero, Int.natAbs_zero, fround_zero]
  next => rfl

theorem fmul_of_finite (ha : isFinite a = true) (hb : isFinite b = true) :
    fmul a b = fround (signOf a b) (f32Mag a * f32Mag b) (2 ^ 149) := by
  simp [fmul, isNaN_of_isFinite ha, isNaN_of_isFinite hb, isInf_of_isFinite ha, isInf_of_isFinite hb]

theorem fdiv_of_finite (ha : isFinite a = true) (hb : isFinite b = true) (hne : f32Mag b ≠ 0) :
    fdiv a b = fround (signOf a b) (f32Mag a * 2 ^ 149) (f32Mag b) := by
  simp [fdiv, isNaN_of_isFinite ha, isNaN_of_isFinite hb, isInf_of_isFinite ha, isInf_of_isFinite hb, isZero, hne]

/-- A sum that has the sign and the magnitude of a number is that number. -/
theorem fadd_eq_of_sum {c : Word} (ha : isFinite a = true) (hb : isFinite b = true) (hc : isNaN c = false)
    (hsum : f32Val a + f32Val b = f32Val c) (hne : f32Mag c ≠ 0) : fadd a b = c := by
  have hval : f32Val c ≠ 0 := by have := natAbs_f32Val c; omega
  rw [fadd_of_finite ha hb, sumNeg, hsum, if_neg hval, decide_f32Val_neg hne, natAbs_f32Val, fround_f32Mag hc]

theorem fadd_of_isZero_right (ha : isFinite a = true) (hne : f32Mag a ≠ 0) (hb : isZero b = true) : fadd a b = a :=
  fadd_eq_of_sum ha (isFinite_of_isZero hb) (isNaN_of_isFinite ha) (by rw [f32Val_of_isZero hb, add_zero]) hne

/-- An exact zero sum of operands of opposite signs is +0.0. -/
theorem fadd_fneg_self (ha : isFinite a = true) : fadd a (fneg a) = fZero := by
  have hsum : f32Val a + f32Val (fneg a) = 0 := by rw [f32Val_fneg]; omega
  rw [fadd_of_finite ha (by rwa [isFinite_fneg]), sumNeg, hsum, if_pos rfl, f32Neg_fneg, Bool.and_not_self]
  exact fround_zero false 1

theorem fsub_self (ha : isFinite a = true) : fsub a a = fZero := fadd_fneg_self ha

/-! ## Infinite operands (R13) -/

theorem fadd_of_isInf_left (ha : isInf a = true) (hb : isFinite b = true) : fadd a b = a := by
  simp [fadd, isNaN_of_isInf ha, isNaN_of_isFinite hb, ha, isInf_of_isFinite hb]

theorem fadd_of_isInf_right (ha : isFinite a = true) (hb : isInf b = true) : fadd a b = b := by
  simp [fadd, isNaN_of_isFinite ha, isNaN_of_isInf hb, isInf_of_isFinite ha, hb]

theorem fadd_of_isInf_isInf (ha : isInf a = true) (hb : isInf b = true) :
    fadd a b = if f32Neg a = f32Neg b then a else qNaN := by
  simp [fadd, isNaN_of_isInf ha, isNaN_of_isInf hb, ha, hb]

theorem fmul_of_isInf (ha : isInf a = true) (hb : isNaN b = false) :
    fmul a b = if isZero b = true then qNaN else f32Inf (signOf a b) := by
  simp [fmul, isNaN_of_isInf ha, hb, ha, isZero_of_isInf ha]

theorem fdiv_of_isInf_left (ha : isInf a = true) (hb : isFinite b = true) : fdiv a b = f32Inf (signOf a b) := by
  simp [fdiv, isNaN_of_isInf ha, isNaN_of_isFinite hb, ha, isInf_of_isFinite hb]

theorem fdiv_of_isInf_right (ha : isFinite a = true) (hb : isInf b = true) : fdiv a b = f32Pack (signOf a b) 0 := by
  simp [fdiv, isNaN_of_isFinite ha, isNaN_of_isInf hb, isInf_of_isFinite ha, hb]

theorem fdiv_of_isInf_isInf (ha : isInf a = true) (hb : isInf b = true) : fdiv a b = qNaN := by
  simp [fdiv, isNaN_of_isInf ha, isNaN_of_isInf hb, ha, hb]

theorem fdiv_of_isZero_right (ha : isFinite a = true) (hb : isZero b = true) :
    fdiv a b = if isZero a = true then qNaN else f32Inf (signOf a b) := by
  have hbfin := isFinite_of_isZero hb
  simp [fdiv, isNaN_of_isFinite ha, isNaN_of_isFinite hbfin, isInf_of_isFinite ha, isInf_of_isFinite hbfin, hb]

/-! ## One is neutral, sums and products commute -/

theorem fmul_fOne (ha : isNaN a = false) : fmul a fOne = a := by
  rcases isFinite_or_isInf ha with hfin | hinf
  · have hcancel := fround_mul_right (f32Neg a) (f32Mag a) 1 (Nat.two_pow_pos 149)
    rw [Nat.one_mul] at hcancel
    rw [fmul_of_finite hfin isFinite_fOne, signOf_fOne, f32Mag_fOne, hcancel, fround_f32Mag ha]
  · rw [fmul_of_isInf hinf (isNaN_of_isFinite isFinite_fOne), if_neg (by decide), signOf_fOne, ← eq_f32Inf_of_isInf hinf]

theorem fdiv_fOne (ha : isNaN a = false) : fdiv a fOne = a := by
  rcases isFinite_or_isInf ha with hfin | hinf
  · have hcancel := fround_mul_right (f32Neg a) (f32Mag a) 1 (Nat.two_pow_pos 149)
    rw [Nat.one_mul] at hcancel
    rw [fdiv_of_finite hfin isFinite_fOne (by decide), signOf_fOne, f32Mag_fOne, hcancel, fround_f32Mag ha]
  · rw [fdiv_of_isInf_left hinf isFinite_fOne, signOf_fOne, ← eq_f32Inf_of_isInf hinf]

theorem fadd_comm (a b : Word) : fadd a b = fadd b a := by
  by_cases hnan : isNaN a = true ∨ isNaN b = true
  · rw [fadd_of_nan hnan, fadd_of_nan hnan.symm]
  · simp only [not_or, Bool.not_eq_true] at hnan
    rcases isFinite_or_isInf hnan.1 with ha | ha <;> rcases isFinite_or_isInf hnan.2 with hb | hb
    · rw [fadd_of_finite ha hb, fadd_of_finite hb ha, sumNeg, sumNeg, Int.add_comm, Bool.and_comm]
    · rw [fadd_of_isInf_right ha hb, fadd_of_isInf_left hb ha]
    · rw [fadd_of_isInf_left ha hb, fadd_of_isInf_right hb ha]
    · rw [fadd_of_isInf_isInf ha hb, fadd_of_isInf_isInf hb ha]
      by_cases hneg : f32Neg a = f32Neg b
      · rw [if_pos hneg, if_pos hneg.symm, eq_f32Inf_of_isInf ha, eq_f32Inf_of_isInf hb, hneg]
      · rw [if_neg hneg, if_neg (Ne.symm hneg)]

theorem fmul_comm (a b : Word) : fmul a b = fmul b a := by
  simp only [fmul, Bool.or_comm, signOf_comm, Nat.mul_comm]

/-! ## The square root of a zero, an infinity and what has no root (R13, R143) -/

theorem fsqrt_of_isZero (h : isZero a = true) : fsqrt a = a := by
  simp [fsqrt, isNaN_of_isFinite (isFinite_of_isZero h), h]

theorem fsqrt_of_no_root (h : isNaN a = true ∨ (f32Neg a = true ∧ isZero a = false)) : fsqrt a = qNaN := by
  rcases h with hnan | ⟨hneg, hne⟩
  · simp [fsqrt, hnan]
  · simp [fsqrt, hneg, hne]

end

end Sys2Proof.Machine
end

/-! ## The statement about the corner cases -/

section
open Sys2Proof.Machine

/-- Settles O22: each clause is one of the cases of its primitive. -/
theorem arithmeticCorners : Obligations.ArithmeticCorners := by
  refine ⟨fun a b h => ⟨fadd_of_nan h, fsub_of_nan h, fmul_of_nan h, fdiv_of_nan h⟩,
    fun a ha => ⟨fadd_fneg_self ha, fsub_self ha⟩,
    fun a ha hne => ⟨fadd_of_isZero_right ha hne (by decide), fadd_of_isZero_right ha hne (by decide)⟩,
    fun a ha => ⟨fmul_fOne ha, fdiv_fOne ha⟩, fun a b => ⟨fadd_comm a b, fmul_comm a b⟩,
    fun a b ha hb => ⟨fdiv_of_isInf_isInf ha hb, fun hne => ?_⟩, fun a b ha hb => ?_, fun a b ha hb => ?_,
    fun a b ha hne hb => ?_, fun a b ha hb => ⟨fadd_of_isInf_left ha hb, ?_, ?_, ?_⟩, fun a b ha hb hne => ?_,
    fun a => fsqrt_of_no_root, fun a => fsqrt_of_isZero, by decide⟩
  · rw [fadd_of_isInf_isInf ha hb, if_neg hne]; rfl
  · rw [fmul_comm, fmul_of_isInf hb (isNaN_of_isFinite (isFinite_of_isZero ha)), if_pos ha]; rfl
  · rw [fdiv_of_isZero_right (isFinite_of_isZero ha) hb, if_pos ha]; rfl
  · rw [fdiv_of_isZero_right ha hb, if_neg (by simpa [isZero] using hne), f32Inf_signOf]
  · exact fadd_of_isInf_left ha (by rwa [isFinite_fneg])
  · rw [fdiv_of_isInf_left ha hb, f32Inf_signOf]
  · rw [fdiv_of_isInf_right hb ha, signOf_comm, f32Pack_signOf_zero]
  · rw [fmul_of_isInf ha hb, if_neg (by simp [hne]), f32Inf_signOf]

end

section
/-! Rounding (00_scope.md R12, R15, R17). `roundMag` cuts a magnitude x at the unit 2^e of its leading 24 bits. The binary32
magnitudes are the multiples of that unit, and below 2^23 such units some more; so the multiple nearest x is the nearest
of all of them, and an infinity takes the place of the first one that is out of range. -/

namespace Sys2Proof.Machine

/-! ## The nearest quotient -/

theorem divNearestEven_cases (n : Nat) {d : Nat} (hd : 0 < d) :
    ∃ r, n = n / d * d + r ∧ r < d ∧
      (divNearestEven n d = n / d ∧ 2 * r ≤ d ∧ (2 * r = d → n / d % 2 = 0) ∨
        divNearestEven n d = n / d + 1 ∧ d ≤ 2 * r ∧ (2 * r = d → n / d % 2 = 1)) := by
  refine ⟨n % d, (Nat.div_add_mod' n d).symm, Nat.mod_lt n hd, ?_⟩
  unfold divNearestEven
  split
  next => exact .inl ⟨rfl, by omega, by omega⟩
  next =>
    split
    next => exact .inr ⟨rfl, by omega, by omega⟩
    next =>
      rcases Nat.mod_two_eq_zero_or_one (n / d) with h | h <;> rw [h]
      · exact .inl ⟨rfl, by omega, fun _ => rfl⟩
      · exact .inr ⟨rfl, by omega, fun _ => rfl⟩

/-- The quotient is nearest: it misses by at most half a divisor, and by half only where it is even. -/
theorem divNearestEven_nearest (n : Nat) {d : Nat} (hd : 0 < d) :
    2 * ((divNearestEven n d * d : Nat) - (n : Int)).natAbs ≤ d ∧
      (2 * ((divNearestEven n d * d : Nat) - (n : Int)).natAbs = d → divNearestEven n d % 2 = 0) := by
  obtain ⟨r, hn, hr, ⟨hq, hle, heven⟩ | ⟨hq, hle, hodd⟩⟩ := divNearestEven_cases n hd
  · rw [hq]
    omega
  · rw [hq, Nat.add_mul]
    omega

theorem div_le_divNearestEven (n : Nat) {d : Nat} (hd : 0 < d) : n / d ≤ divNearestEven n d := by
  obtain ⟨_, _, _, ⟨hq, _⟩ | ⟨hq, _⟩⟩ := divNearestEven_cases n hd <;> omega

theorem divNearestEven_le_ceil (n : Nat) {d : Nat} (hd : 0 < d) : divNearestEven n d ≤ (n + (d - 1)) / d := by
  rw [Nat.le_div_iff_mul_le hd]
  obtain ⟨r, hn, hr, ⟨hq, hle, -⟩ | ⟨hq, hle, -⟩⟩ := divNearestEven_cases n hd
  · rw [hq]
    omega
  · rw [hq, Nat.add_mul]
    omega

/-! ## Rounding to an integer (R15), conversions (R17) -/

theorem representable_integer {n : Nat} (h : n ≤ 2 ^ 24) : Representable (n * 2 ^ 149) := by
  rcases h.lt_or_eq with hlt | rfl
  · exact ⟨n, 149, hlt, by decide, rfl⟩
  · exact ⟨2 ^ 23, 150, by decide, by decide, by norm_num⟩

/-- `u2f` is exact up to 2^24. -/
theorem u2f_exact {n : Nat} (h : n ≤ 2 ^ 24) :
    f32Mag (u2f n) = n * 2 ^ 149 ∧ f32Neg (u2f n) = false ∧ isFinite (u2f n) = true :=
  (representable_integer h).fround_exact false

/-- `f2u` undoes it. -/
theorem f2u_u2f {n : Nat} (h : n ≤ 2 ^ 24) : f2u (u2f n) = n := by
  rw [f2u, (u2f_exact h).1, Nat.mul_div_cancel _ (Nat.two_pow_pos 149)]

/-- A value with a fraction is below 2^23, so the integers on either side of a value are representable. -/
theorem representable_integral {a : Word} (ha : isFinite a = true) {k : Nat} (hlo : magFloor a ≤ k)
    (hhi : k ≤ magCeil a) : Representable (k * 2 ^ 149) := by
  have hrep := representable_f32Mag ha
  unfold magFloor at hlo
  unfold magCeil at hhi
  by_cases hdvd : 2 ^ 149 ∣ f32Mag a
  · rwa [show k * 2 ^ 149 = f32Mag a by omega]
  · obtain ⟨m, e, hm, -, hmag⟩ := hrep
    have he : e ≤ 148 := by
      by_contra hlarge
      exact hdvd (hmag ▸ (Nat.pow_dvd_pow 2 (by omega)).mul_left m)
    have hlt : f32Mag a < 2 ^ 24 * 2 ^ 148 :=
      calc f32Mag a = m * 2 ^ e := hmag
        _ < 2 ^ 24 * 2 ^ e := Nat.mul_lt_mul_of_pos_right hm (Nat.two_pow_pos e)
        _ ≤ 2 ^ 24 * 2 ^ 148 := Nat.mul_le_mul_left _ (Nat.pow_le_pow_right (by decide) he)
    exact representable_integer (by omega)

/-- An integer on either side of a value is given exactly, with the sign of the value. -/
theorem integralLike_exact {a : Word} (ha : isFinite a = true) {k : Nat} (hlo : magFloor a ≤ k) (hhi : k ≤ magCeil a) :
    f32Val (integralLike a k) = (if f32Neg a then -(k * 2 ^ 149 : Int) else k * 2 ^ 149) ∧
      f32Neg (integralLike a k) = f32Neg a := by
  obtain ⟨hmag, hneg, -⟩ := (representable_integral ha hlo hhi).fround_exact (f32Neg a)
  rw [f32Val, integralLike, hmag, hneg]
  exact ⟨by push_cast; rfl, rfl⟩

theorem magFloor_le_magCeil (a : Word) : magFloor a ≤ magCeil a := by
  unfold magFloor magCeil
  omega

theorem ffloor_of_finite {a : Word} (ha : isFinite a = true) :
    ffloor a = integralLike a (if f32Neg a then magCeil a else magFloor a) := by
  simp [ffloor, isNaN_of_isFinite ha, isInf_of_isFinite ha]

theorem fceil_of_finite {a : Word} (ha : isFinite a = true) :
    fceil a = integralLike a (if f32Neg a then magFloor a else magCeil a) := by
  simp [fceil, isNaN_of_isFinite ha, isInf_of_isFinite ha]

theorem frint_of_finite {a : Word} (ha : isFinite a = true) :
    frint a = integralLike a (divNearestEven (f32Mag a) (2 ^ 149)) := by
  simp [frint, isNaN_of_isFinite ha, isInf_of_isFinite ha]

/-- The negated quotient rounded up is the quotient of the negation rounded down. -/
theorem neg_ceil_eq_ediv (m : Nat) {d : Nat} (hd : 0 < d) : -(((m + (d - 1)) / d : Nat) : Int) = -(m : Int) / d := by
  have hdiv := Nat.div_add_mod' (m + (d - 1)) d
  have hmod := Nat.mod_lt (m + (d - 1)) hd
  have hcast : (((m + (d - 1)) / d * d : Nat) : Int) = ((m + (d - 1)) / d : Nat) * (d : Int) := Nat.cast_mul _ _
  symm
  rw [Int.ediv_eq_iff_of_pos (by omega), neg_mul]
  omega

theorem ffloor_exact {a : Word} (ha : isFinite a = true) :
    f32Val (ffloor a) = f32Val a / 2 ^ 149 * 2 ^ 149 ∧ f32Neg (ffloor a) = f32Neg a := by
  have hle := magFloor_le_magCeil a
  rw [ffloor_of_finite ha]
  cases hneg : f32Neg a with
  | true =>
    rw [if_pos rfl]
    obtain ⟨hval, hsign⟩ := integralLike_exact ha hle le_rfl
    rw [hneg] at hval hsign
    refine ⟨hval.trans ?_, hsign⟩
    rw [if_pos rfl, f32Val_of_neg hneg, ← neg_mul, magCeil, neg_ceil_eq_ediv _ (Nat.two_pow_pos 149)]
    norm_cast
  | false =>
    rw [if_neg Bool.false_ne_true]
    obtain ⟨hval, hsign⟩ := integralLike_exact ha le_rfl hle
    rw [hneg] at hval hsign
    refine ⟨hval.trans ?_, hsign⟩
    rw [if_neg Bool.false_ne_true, f32Val_of_nonneg hneg, magFloor]
    norm_cast

/-- The least integer not below a value is the largest not above its negation, negated. -/
theorem fceil_exact {a : Word} (ha : isFinite a = true) :
    f32Val (fceil a) = -(-f32Val a / 2 ^ 149 * 2 ^ 149) ∧ f32Neg (fceil a) = f32Neg a := by
  have hle := magFloor_le_magCeil a
  rw [fceil_of_finite ha]
  cases hneg : f32Neg a with
  | true =>
    rw [if_pos rfl]
    obtain ⟨hval, hsign⟩ := integralLike_exact ha le_rfl hle
    rw [hneg] at hval hsign
    refine ⟨hval.trans ?_, hsign⟩
    rw [if_pos rfl, f32Val_of_neg hneg, neg_neg, magFloor]
    norm_cast
  | false =>
    rw [if_neg Bool.false_ne_true]
    obtain ⟨hval, hsign⟩ := integralLike_exact ha hle le_rfl
    rw [hneg] at hval hsign
    refine ⟨hval.trans ?_, hsign⟩
    rw [if_neg Bool.false_ne_true, f32Val_of_nonneg hneg, ← neg_mul, ← Int.neg_neg (magCeil a : Int),
      magCeil, neg_ceil_eq_ediv _ (Nat.two_pow_pos 149)]
    norm_cast

theorem frint_exact {a : Word} (ha : isFinite a = true) :
    (∃ k : Int, f32Val (frint a) = k * 2 ^ 149 ∧ 2 * (f32Val (frint a) - f32Val a).natAbs ≤ 2 ^ 149 ∧
      (2 * (f32Val (frint a) - f32Val a).natAbs = 2 ^ 149 → k % 2 = 0)) ∧ f32Neg (frint a) = f32Neg a := by
  have hpos := Nat.two_pow_pos 149
  obtain ⟨hval, hsign⟩ := integralLike_exact ha (div_le_divNearestEven (f32Mag a) hpos)
    (divNearestEven_le_ceil (f32Mag a) hpos)
  obtain ⟨hhalf, heven⟩ := divNearestEven_nearest (f32Mag a) hpos
  rw [frint_of_finite ha]
  refine ⟨?_, hsign⟩
  rw [hval]
  cases hneg : f32Neg a with
  | true =>
    refine ⟨-(divNearestEven (f32Mag a) (2 ^ 149)), by simp, ?_⟩
    rw [f32Val_of_neg hneg]
    simp only [if_true]
    omega
  | false =>
    refine ⟨divNearestEven (f32Mag a) (2 ^ 149), by simp, ?_⟩
    rw [f32Val_of_nonneg hneg]
    simp only [Bool.false_eq_true, if_false]
    omega

end Sys2Proof.Machine
end

section
open Sys2Proof.Machine

/-- Settles O23: an integer next to a value is representable, so the three roundings and the conversions are exact. -/
theorem integralRounding : Obligations.IntegralRounding := by
  refine ⟨fun n hn => ?_, fun a ha => ?_⟩
  · obtain ⟨hmag, hneg, hfin⟩ := u2f_exact hn.le
    exact ⟨hfin, hneg, hmag, f2u_u2f hn.le⟩
  · obtain ⟨hfloor, hfloorNeg⟩ := ffloor_exact ha
    obtain ⟨hceil, hceilNeg⟩ := fceil_exact ha
    obtain ⟨hrint, hrintNeg⟩ := frint_exact ha
    exact ⟨hfloor, hceil, hrint, hfloorNeg, hceilNeg, hrintNeg⟩

end

section
/-! The rounding of 00_scope.md R12 is roundTiesToEven. Between 2^23 and 2^24 units 2^e every binary32 magnitude is a
multiple of the unit, and the magnitudes that are none are below; so the multiple nearest x is the nearest of all
magnitudes, the one above FLT_MAX standing for the infinity. -/

namespace Sys2Proof.Machine

/-! ## Bits and magnitudes -/

/-- As `f32Mag_f32Pack`, with a carry out of the significand and the infinity included. -/
theorem f32Mag_of_bits (neg : Bool) {e m : Nat} (hbits : e * 2 ^ 23 + m ≤ 0x7F800000) (hm : m ≤ 2 ^ 24)
    (hlead : e = 0 ∨ 2 ^ 23 ≤ m) : f32Mag (f32Pack neg (e * 2 ^ 23 + m)) = m * 2 ^ e := by
  have hlt : e * 2 ^ 23 + m < 2 ^ 31 := hbits.trans_lt (by decide)
  rw [f32Mag, f32Exp_f32Pack neg hlt, f32Frac_f32Pack neg hlt]
  by_cases hsub : m < 2 ^ 23
  · obtain rfl : e = 0 := by omega
    rw [if_pos (by omega)]
    omega
  · rw [if_neg (by omega)]
    rcases hm.lt_or_eq with hshort | rfl
    · rw [show (e * 2 ^ 23 + m) / 2 ^ 23 = e + 1 by omega, show 2 ^ 23 + (e * 2 ^ 23 + m) % 2 ^ 23 = m by omega,
        Nat.add_sub_cancel]
    · rw [show (e * 2 ^ 23 + 2 ^ 24) / 2 ^ 23 = e + 2 by omega,
        show 2 ^ 23 + (e * 2 ^ 23 + 2 ^ 24) % 2 ^ 23 = 2 ^ 23 by omega, show e + 2 - 1 = e + 1 by omega, Nat.pow_succ]
      omega

theorem getLsbD_zero_f32Pack (neg : Bool) {bits : Nat} (h : bits < 2 ^ 31) :
    (f32Pack neg bits).getLsbD 0 = decide (bits % 2 = 1) := by
  rw [← BitVec.testBit_toNat, toNat_f32Pack neg h, Nat.testBit_zero]
  split
  · simp only [decide_eq_decide]; omega
  · rfl

/-- A magnitude is a multiple of 2^e or below 2^23 such units. -/
theorem f32Mag_dvd_or_lt (w : Word) (e : Nat) : 2 ^ e ∣ f32Mag w ∨ f32Mag w < 2 ^ 23 * 2 ^ e := by
  have hfrac := f32Frac_lt w
  rw [f32Mag]
  split
  next => exact .inr (hfrac.trans_le (Nat.le_mul_of_pos_right _ (Nat.two_pow_pos e)))
  next =>
    rcases le_or_gt e (f32Exp w - 1) with hle | hlt
    · exact .inl ((Nat.pow_dvd_pow 2 hle).mul_left _)
    · obtain ⟨e, rfl⟩ : ∃ k, e = k + 1 := ⟨e - 1, by omega⟩
      right
      calc (2 ^ 23 + f32Frac w) * 2 ^ (f32Exp w - 1)
        _ < 2 ^ 24 * 2 ^ (f32Exp w - 1) := Nat.mul_lt_mul_of_pos_right (by omega) (Nat.two_pow_pos _)
        _ ≤ 2 ^ 24 * 2 ^ e := Nat.mul_le_mul_left _ (Nat.pow_le_pow_right (by decide) (by omega))
        _ = 2 ^ 23 * 2 ^ (e + 1) := by rw [Nat.pow_succ]; omega

/-- No number has a larger magnitude than an infinity. -/
theorem f32Mag_le_of_number {w : Word} (h : isNaN w = false) : f32Mag w ≤ 2 ^ 23 * 2 ^ 254 := by
  rcases isFinite_or_isInf h with hfin | hinf
  · rw [← f32Mag_of_isInf (show isInf fInf = true by decide)]
    exact (f32Mag_lt_of_isInf hfin (by decide)).le
  · exact (f32Mag_of_isInf hinf).le

/-! ## The multiple of the unit nearest x -/

/-- `q` units 2^e are nearest x with ties to even, and x has its leading bit no lower than at 23 such units. -/
structure Nearest (x : ℝ) (e q : Nat) : Prop where
  half : |(q : ℝ) * 2 ^ e - x| ≤ 2 ^ e / 2
  even : |(q : ℝ) * 2 ^ e - x| = 2 ^ e / 2 → q % 2 = 0
  lead : e = 0 ∨ (2 : ℝ) ^ 23 * 2 ^ e ≤ x
  upper : x < 2 ^ 24 * 2 ^ e

namespace Nearest
variable {x : ℝ} {e q : Nat}

/-- Of the multiples of the unit the nearest. -/
theorem multiple (h : Nearest x e q) (k : Nat) :
    |(q : ℝ) * 2 ^ e - x| ≤ |(k : ℝ) * 2 ^ e - x| ∧
      (|(q : ℝ) * 2 ^ e - x| = |(k : ℝ) * 2 ^ e - x| → k ≠ q → q % 2 = 0) := by
  rcases eq_or_ne k q with rfl | hne
  · exact ⟨le_rfl, fun _ h => absurd rfl h⟩
  have hunit : (0 : ℝ) < 2 ^ e := by positivity
  have hgap : (1 : ℝ) ≤ |(k : ℝ) - q| := by
    rw [le_abs]
    rcases hne.lt_or_gt with hlt | hgt
    · have : (k : ℝ) + 1 ≤ q := by exact_mod_cast hlt
      exact .inr (by linarith)
    · have : (q : ℝ) + 1 ≤ k := by exact_mod_cast hgt
      exact .inl (by linarith)
  have hapart : (2 : ℝ) ^ e ≤ |(k : ℝ) * 2 ^ e - x| + |(q : ℝ) * 2 ^ e - x| :=
    calc (2 : ℝ) ^ e ≤ |(k : ℝ) - q| * 2 ^ e := le_mul_of_one_le_left hunit.le hgap
      _ = |((k : ℝ) * 2 ^ e - x) - ((q : ℝ) * 2 ^ e - x)| := by
        rw [← abs_of_pos hunit, ← abs_mul, abs_of_pos hunit]; ring_nf
      _ ≤ _ := abs_sub _ _
  have hhalf := h.half
  exact ⟨by linarith, fun heq _ => h.even (by linarith)⟩

/-- Of the binary32 magnitudes the nearest: one that is no multiple of the unit is further than 2^23 units. -/
theorem magnitude (h : Nearest x e q) (w : Word) :
    |(q : ℝ) * 2 ^ e - x| ≤ |(f32Mag w : ℝ) - x| ∧
      (|(q : ℝ) * 2 ^ e - x| = |(f32Mag w : ℝ) - x| → f32Mag w ≠ q * 2 ^ e → q % 2 = 0) := by
  by_cases hdvd : 2 ^ e ∣ f32Mag w
  · obtain ⟨k, hk⟩ := hdvd
    rw [Nat.mul_comm] at hk
    obtain ⟨hle, htie⟩ := h.multiple k
    rw [hk]
    push_cast
    exact ⟨hle, fun heq hne => htie heq fun hkq => hne (hkq ▸ rfl)⟩
  · have hsmall : (f32Mag w : ℝ) < 2 ^ 23 * 2 ^ e := by
      exact_mod_cast (f32Mag_dvd_or_lt w e).resolve_left hdvd
    have hlead : (2 : ℝ) ^ 23 * 2 ^ e ≤ x := h.lead.resolve_left fun h0 => hdvd (by simp [h0])
    obtain ⟨hle, -⟩ := h.multiple (2 ^ 23)
    rw [Nat.cast_pow, Nat.cast_ofNat] at hle
    rw [abs_of_nonpos (show (2 : ℝ) ^ 23 * 2 ^ e - x ≤ 0 by linarith)] at hle
    rw [abs_of_nonpos (show (f32Mag w : ℝ) - x ≤ 0 by linarith)]
    exact ⟨by linarith, fun heq => absurd heq (by linarith)⟩

/-- The significand has its leading bit at 23 where the unit is not the smallest, and no bit above 24. -/
theorem significand (h : Nearest x e q) : (e = 0 ∨ 2 ^ 23 ≤ q) ∧ q ≤ 2 ^ 24 := by
  have hunit : (0 : ℝ) < 2 ^ e := by positivity
  obtain ⟨hlow, hhigh⟩ := abs_le.mp h.half
  refine ⟨h.lead.imp_right fun hlead => ?_, ?_⟩
  · by_contra hlt
    have hq : (q : ℝ) + 1 ≤ 2 ^ 23 := by exact_mod_cast (by omega : q + 1 ≤ 2 ^ 23)
    have := mul_le_mul_of_nonneg_right hq hunit.le
    linarith
  · by_contra hgt
    have hq : (2 : ℝ) ^ 24 + 1 ≤ q := by exact_mod_cast (by omega : 2 ^ 24 + 1 ≤ q)
    have := mul_le_mul_of_nonneg_right hq hunit.le
    have := h.upper
    linarith

end Nearest

/-! ## The nearest word -/

/-- The magnitude of `r` is the nearest to x of all binary32 magnitudes, on a tie the one with an even last bit. -/
def NearestMag (x : ℝ) (r : Word) : Prop :=
  isNaN r = false ∧ ∀ w, isNaN w = false →
    |(f32Mag r : ℝ) - x| ≤ |(f32Mag w : ℝ) - x| ∧
      (|(f32Mag r : ℝ) - x| = |(f32Mag w : ℝ) - x| → f32Mag w ≠ f32Mag r → r.getLsbD 0 = false)

/-- The word of the bits `e · 2^23 + q`, an overflow giving the infinity. -/
theorem Nearest.nearestMag {x : ℝ} {e q : Nat} (h : Nearest x e q) (neg : Bool) :
    NearestMag x (f32Pack neg (min (e * 2 ^ 23 + q) 0x7F800000)) := by
  obtain ⟨hlead, hupper⟩ := h.significand
  rcases le_or_gt (e * 2 ^ 23 + q) 0x7F800000 with hle | hgt
  · rw [min_eq_left hle]
    have hlt : e * 2 ^ 23 + q < 2 ^ 31 := hle.trans_lt (by decide)
    refine ⟨?_, fun w _ => ?_⟩
    · simp only [isNaN, f32Exp_f32Pack neg hlt, f32Frac_f32Pack neg hlt, Bool.and_eq_false_iff, beq_eq_false_iff_ne,
        bne_eq_false_iff_eq]
      omega
    · obtain ⟨hnear, htie⟩ := h.magnitude w
      rw [f32Mag_of_bits neg hle hupper hlead, getLsbD_zero_f32Pack neg hlt, decide_eq_false_iff_not]
      push_cast
      exact ⟨hnear, fun heq hne => by have := htie heq hne; omega⟩
  · rw [min_eq_right hgt.le]
    have hinf : isInf (f32Pack neg 0x7F800000) = true := (f32Inf_fields neg).1
    have hx : (2 : ℝ) ^ 23 * 2 ^ 254 ≤ x := by
      refine le_trans ?_ (h.lead.resolve_left (by omega))
      gcongr
      · norm_num
      · omega
    refine ⟨isNaN_of_isInf hinf, fun w hw => ?_⟩
    have hmag : (f32Mag w : ℝ) ≤ 2 ^ 23 * 2 ^ 254 := by exact_mod_cast f32Mag_le_of_number hw
    rw [f32Mag_of_isInf hinf]
    push_cast
    rw [abs_of_nonpos (by linarith), abs_of_nonpos (show (f32Mag w : ℝ) - x ≤ 0 by linarith)]
    exact ⟨by linarith, fun heq hne => absurd (by exact_mod_cast (by linarith : (f32Mag w : ℝ) = 2 ^ 23 * 2 ^ 254)) hne⟩

/-! ## Rounding a fraction -/

/-- The exponent of the unit `roundMag` cuts n/d at. -/
def unitExp (n d : Nat) : Nat := (n / d).log2 - 23

theorem lead_le_of_unitExp {n d : Nat} (h : unitExp n d ≠ 0) : 2 ^ 23 * 2 ^ unitExp n d ≤ n / d := by
  have hne : n / d ≠ 0 := fun h0 => h (by simp [unitExp, h0])
  rw [← Nat.pow_add, show 23 + unitExp n d = (n / d).log2 by unfold unitExp at *; omega]
  exact Nat.log2_self_le hne

theorem lt_of_unitExp (n d : Nat) : n / d < 2 ^ 24 * 2 ^ unitExp n d := by
  rw [← Nat.pow_add]
  exact Nat.lt_log2_self.trans_le (Nat.pow_le_pow_right (by decide) (by unfold unitExp; omega))

/-- The distance of a quotient from its fraction, as integers have it. -/
theorem abs_sub_div (q n : Nat) {d : Nat} (hd : 0 < d) :
    |(q : ℝ) - n / d| * d = (((q * d : Nat) - (n : Int)).natAbs : ℝ) := by
  have hpos : (0 : ℝ) < d := by exact_mod_cast hd
  rw [Nat.cast_natAbs, ← abs_of_pos hpos, ← abs_mul, abs_of_pos hpos, sub_mul, div_mul_cancel₀ _ hpos.ne']
  push_cast
  rfl

theorem nearest_roundMag (n : Nat) {d : Nat} (hd : 0 < d) :
    Nearest ((n : ℝ) / d) (unitExp n d) (divNearestEven n (d * 2 ^ unitExp n d)) := by
  generalize he : unitExp n d = e
  have hpos : (0 : ℝ) < d := by exact_mod_cast hd
  have hscale : 0 < d * 2 ^ e := Nat.mul_pos hd (Nat.two_pow_pos e)
  obtain ⟨hhalf, heven⟩ := divNearestEven_nearest n hscale
  generalize divNearestEven n (d * 2 ^ e) = q at hhalf heven
  have hdist := abs_sub_div (q * 2 ^ e) n hd
  rw [show q * 2 ^ e * d = q * (d * 2 ^ e) by ring] at hdist
  push_cast at hdist
  refine ⟨?_, fun htie => heven ?_, ?_, ?_⟩
  · have : (2 * ((q * (d * 2 ^ e) : Nat) - (n : Int)).natAbs : ℝ) ≤ d * 2 ^ e := by exact_mod_cast hhalf
    push_cast at this
    rw [← hdist] at this
    nlinarith
  · have : (2 * ((q * (d * 2 ^ e) : Nat) - (n : Int)).natAbs : ℝ) = d * 2 ^ e := by
      push_cast
      rw [← hdist, htie]
      ring
    exact_mod_cast this
  · refine (Nat.eq_zero_or_pos e).imp_right fun hne => ?_
    rw [le_div_iff₀ hpos]
    exact_mod_cast (Nat.le_div_iff_mul_le hd).mp (he ▸ lead_le_of_unitExp (by omega))
  · rw [div_lt_iff₀ hpos]
    exact_mod_cast (Nat.div_lt_iff_lt_mul hd).mp (he ▸ lt_of_unitExp n d)

theorem nearestMag_fround (neg : Bool) (n : Nat) {d : Nat} (hd : 0 < d) : NearestMag ((n : ℝ) / d) (fround neg n d) :=
  (nearest_roundMag n hd).nearestMag neg

end Sys2Proof.Machine
end

section
/-! The primitives of 00_scope.md R12 round correctly: signs, and the square root through the half unit that stands for its
digits. -/

namespace Sys2Proof.Machine

/-! ## Signs -/

/-- A magnitude with a sign. -/
def withSign (neg : Bool) (y : ℝ) : ℝ := if neg then -y else y

theorem abs_withSign_sub (neg : Bool) (y z : ℝ) : |withSign neg y - withSign neg z| = |y - z| := by
  cases neg
  · rfl
  · rw [abs_sub_comm]
    congr 1
    simp only [withSign, if_true]
    ring

theorem abs_withSign (neg : Bool) {y : ℝ} (hy : 0 ≤ y) : |withSign neg y| = y := by
  cases neg <;> simp [withSign, abs_of_nonneg hy]

theorem f32Val_eq_withSign (w : Word) : (f32Val w : ℝ) = withSign (f32Neg w) (f32Mag w) := by
  unfold f32Val withSign
  split <;> simp

theorem abs_f32Val (w : Word) : |(f32Val w : ℝ)| = f32Mag w := by
  rw [f32Val_eq_withSign, abs_withSign _ (Nat.cast_nonneg _)]

/-- A nearest magnitude with the sign of the value is the value rounded: a value of the other sign is no nearer than its
magnitude is, and as near only where both are zero. -/
theorem NearestMag.roundsTo {y : ℝ} {r : Word} (h : NearestMag y r) (hy : 0 ≤ y) : RoundsTo (withSign (f32Neg r) y) r := by
  obtain ⟨hnum, hnear⟩ := h
  have hr : |(f32Val r : ℝ) - withSign (f32Neg r) y| = |(f32Mag r : ℝ) - y| := by
    rw [f32Val_eq_withSign, abs_withSign_sub]
  refine ⟨hnum, fun w hw => ?_⟩
  obtain ⟨hle, htie⟩ := hnear w hw
  have hfar : |(f32Mag w : ℝ) - y| ≤ |(f32Val w : ℝ) - withSign (f32Neg r) y| := by
    have := abs_abs_sub_abs_le (f32Val w : ℝ) (withSign (f32Neg r) y)
    rwa [abs_f32Val, abs_withSign _ hy] at this
  refine ⟨hr.trans_le (hle.trans hfar), fun heq hne => htie (by linarith) fun hmag => hne ?_⟩
  have hopposite : f32Val w = f32Val r ∨ f32Val w = -f32Val r := by
    rw [← Int.natAbs_eq_natAbs_iff, natAbs_f32Val, natAbs_f32Val, hmag]
  refine hopposite.resolve_right fun hneg => hne ?_
  have hproduct : (f32Val r : ℝ) * withSign (f32Neg r) y = 0 := by
    rw [hneg, ← sq_eq_sq_iff_abs_eq_abs] at heq
    push_cast at heq
    linarith
  rcases mul_eq_zero.mp hproduct with hzero | hzero
  · have : f32Val r = 0 := by exact_mod_cast hzero
    omega
  · have hy0 : y = 0 := by rw [← abs_withSign (f32Neg r) hy, hzero, abs_zero]
    have hmag0 := (hnear fZero (by decide)).1
    rw [hy0, show f32Mag fZero = 0 by decide, Nat.cast_zero, sub_zero, sub_zero, abs_zero, abs_nonpos_iff,
      Nat.cast_eq_zero] at hmag0
    have := natAbs_f32Val r
    omega

/-- A rounded fraction is its value rounded. -/
theorem roundsTo_fround (neg : Bool) (n : Nat) {d : Nat} (hd : 0 < d) :
    RoundsTo (withSign neg ((n : ℝ) / d)) (fround neg n d) := by
  have := (nearestMag_fround neg n hd).roundsTo (by positivity)
  rwa [f32Neg_fround] at this

/-! ## Sums, products and quotients -/

section
variable {a b : Word}

theorem roundsTo_fadd (ha : isFinite a = true) (hb : isFinite b = true) :
    RoundsTo ((f32Val a : ℝ) + f32Val b) (fadd a b) := by
  have hround := roundsTo_fround (sumNeg a b) (f32Val a + f32Val b).natAbs Nat.one_pos
  rw [fadd_of_finite ha hb]
  convert hround using 1
  rw [Nat.cast_one, div_one, Nat.cast_natAbs, ← Int.cast_add]
  unfold sumNeg
  split
  next hzero => simp [hzero, withSign]
  next hne =>
    rcases lt_or_ge (f32Val a + f32Val b) 0 with hlt | hge
    · simp [hlt, withSign, abs_of_neg hlt]
    · simp [hge.not_gt, withSign, abs_of_nonneg hge]

theorem roundsTo_fsub (ha : isFinite a = true) (hb : isFinite b = true) :
    RoundsTo ((f32Val a : ℝ) - f32Val b) (fsub a b) := by
  have hsum := roundsTo_fadd ha (b := fneg b) (by rwa [isFinite_fneg])
  rw [f32Val_fneg, Int.cast_neg, ← sub_eq_add_neg] at hsum
  exact hsum

/-- The sign of a product or quotient goes through the factors. -/
theorem withSign_signOf (a b : Word) (y z : ℝ) :
    withSign (signOf a b) (y * z) = withSign (f32Neg a) y * withSign (f32Neg b) z := by
  unfold signOf withSign
  cases f32Neg a <;> cases f32Neg b <;> simp

theorem withSign_inv (neg : Bool) (y : ℝ) : withSign neg y⁻¹ = (withSign neg y)⁻¹ := by
  cases neg <;> simp [withSign, inv_neg]

theorem withSign_mul_right (neg : Bool) (y z : ℝ) : withSign neg (y * z) = withSign neg y * z := by
  cases neg <;> simp [withSign]

theorem roundsTo_fmul (ha : isFinite a = true) (hb : isFinite b = true) :
    RoundsTo ((f32Val a : ℝ) * f32Val b / 2 ^ 149) (fmul a b) := by
  have hround := roundsTo_fround (signOf a b) (f32Mag a * f32Mag b) (Nat.two_pow_pos 149)
  rw [fmul_of_finite ha hb]
  convert hround using 1
  rw [f32Val_eq_withSign, f32Val_eq_withSign, ← withSign_signOf, Nat.cast_mul, div_eq_mul_inv, div_eq_mul_inv,
    ← withSign_mul_right, Nat.cast_pow, Nat.cast_ofNat]

theorem roundsTo_fdiv (ha : isFinite a = true) (hb : isFinite b = true) (hne : f32Mag b ≠ 0) :
    RoundsTo ((f32Val a : ℝ) / f32Val b * 2 ^ 149) (fdiv a b) := by
  have hround := roundsTo_fround (signOf a b) (f32Mag a * 2 ^ 149) (Nat.pos_of_ne_zero hne)
  rw [fdiv_of_finite ha hb hne]
  convert hround using 1
  rw [f32Val_eq_withSign, f32Val_eq_withSign, div_eq_mul_inv, ← withSign_inv, ← withSign_signOf, ← withSign_mul_right,
    Nat.cast_mul, Nat.cast_pow, Nat.cast_ofNat]
  congr 1
  ring

end

/-! ## The square root -/

/-- The bits `isqrtFrom` adds keep the root between `r` and `r + 2^k`. -/
theorem isqrtFrom_bounds (n k r : Nat) (hlo : r * r ≤ n) (hhi : n < (r + 2 ^ k) * (r + 2 ^ k)) :
    isqrtFrom n k r * isqrtFrom n k r ≤ n ∧ n < (isqrtFrom n k r + 1) * (isqrtFrom n k r + 1) := by
  induction k generalizing r with
  | zero => exact ⟨hlo, hhi⟩
  | succ k ih =>
    have hstep : r + 2 ^ (k + 1) = r + 2 ^ k + 2 ^ k := by rw [Nat.pow_succ]; omega
    rw [isqrtFrom]
    split
    next hle => exact ih _ hle (hstep ▸ hhi)
    next hgt => exact ih _ hlo (Nat.not_le.mp hgt)

theorem isqrt_eq_sqrt {n : Nat} (h : n < 2 ^ 213 * 2 ^ 213) : isqrt n = n.sqrt := by
  obtain ⟨hlo, hhi⟩ := isqrtFrom_bounds n 213 0 (Nat.zero_le n) (by rwa [Nat.zero_add])
  exact Nat.eq_sqrt.mpr ⟨hlo, hhi⟩

/-- No integer lies between `r` and half way to `r + 1`. -/
theorem le_of_le_add_half {k r : Nat} (h : (k : ℝ) ≤ r + 1 / 2) : (k : ℝ) ≤ r := by
  have : ((2 * k : Nat) : ℝ) ≤ (2 * r + 1 : Nat) := by push_cast; linarith
  have : 2 * k ≤ 2 * r + 1 := by exact_mod_cast this
  exact_mod_cast (by omega : k ≤ r)

theorem add_one_le_of_add_half_le {k r : Nat} (h : (r : ℝ) + 1 / 2 ≤ k) : (r : ℝ) + 1 ≤ k := by
  have : ((2 * r + 1 : Nat) : ℝ) ≤ (2 * k : Nat) := by push_cast; linarith
  have : 2 * r + 1 ≤ 2 * k := by exact_mod_cast this
  exact_mod_cast (by omega : r + 1 ≤ k)

/-- With a unit of at least 2 the half units are integers, so everything between two integers is rounded as the point half
way between them is. -/
theorem Nearest.of_between {e q r : Nat} (h : Nearest ((r : ℝ) + 1 / 2) e q) (he : e ≠ 0) {x : ℝ} (hlo : (r : ℝ) < x)
    (hhi : x < r + 1) : Nearest x e q := by
  obtain ⟨f, rfl⟩ : ∃ f, e = f + 1 := ⟨e - 1, by omega⟩
  have hhalfUnit : (2 : ℝ) ^ (f + 1) / 2 = 2 ^ f := by rw [pow_succ]; ring
  obtain ⟨habove, hbelow⟩ := abs_le.mp (hhalfUnit ▸ h.half)
  have hlower : (q : ℝ) * 2 ^ (f + 1) ≤ r + 2 ^ f := by
    have := le_of_le_add_half (k := q * 2 ^ (f + 1)) (r := r + 2 ^ f) (by push_cast; linarith)
    exact_mod_cast this
  have hupper : (r : ℝ) + 1 ≤ q * 2 ^ (f + 1) + 2 ^ f := by
    have := add_one_le_of_add_half_le (k := q * 2 ^ (f + 1) + 2 ^ f) (r := r) (by push_cast; linarith)
    exact_mod_cast this
  have hstrict : |(q : ℝ) * 2 ^ (f + 1) - x| < 2 ^ (f + 1) / 2 := by
    rw [hhalfUnit, abs_lt]
    constructor <;> linarith
  have hlead : (2 : ℝ) ^ 23 * 2 ^ (f + 1) ≤ r := by
    have := le_of_le_add_half (k := 2 ^ 23 * 2 ^ (f + 1)) (r := r) (by exact_mod_cast h.lead.resolve_left he)
    exact_mod_cast this
  have hroom : (r : ℝ) + 1 ≤ 2 ^ 24 * 2 ^ (f + 1) := by
    have := add_one_le_of_add_half_le (k := 2 ^ 24 * 2 ^ (f + 1)) (r := r) (by exact_mod_cast h.upper.le)
    exact_mod_cast this
  exact ⟨hstrict.le, fun heq => absurd heq hstrict.ne, .inr (hlead.trans hlo.le), hhi.trans_le hroom⟩

/-- A root of at least 2^24 is rounded through the half unit that stands for its digits. -/
theorem nearestMag_sqrt {n : Nat} (h : 2 ^ 24 ≤ n.sqrt) :
    NearestMag (Real.sqrt n) (fround false (if n.sqrt * n.sqrt = n then 2 * n.sqrt else 2 * n.sqrt + 1) 2) := by
  split
  next hexact =>
    have hround := nearestMag_fround false (2 * n.sqrt) Nat.two_pos
    convert hround using 1
    rw [Real.sqrt_eq_iff_mul_self_eq (by positivity) (by positivity), Nat.cast_mul, Nat.cast_ofNat,
      mul_div_cancel_left₀ _ two_ne_zero]
    exact_mod_cast hexact.symm
  next hinexact =>
    have hquot : (2 * n.sqrt + 1) / 2 = n.sqrt := by omega
    have hexp : unitExp (2 * n.sqrt + 1) 2 ≠ 0 := by
      have : 24 ≤ n.sqrt.log2 := (Nat.le_log2 (by omega)).mpr h
      rw [unitExp, hquot]
      omega
    have hnear := nearest_roundMag (2 * n.sqrt + 1) Nat.two_pos
    have hpoint : (((2 * n.sqrt + 1 : Nat) : ℝ) / (2 : Nat)) = n.sqrt + 1 / 2 := by push_cast; ring
    rw [hpoint] at hnear
    have hlo : (n.sqrt : ℝ) < Real.sqrt n := by
      refine lt_of_le_of_ne Real.nat_sqrt_le_real_sqrt fun heq => hinexact ?_
      have := Real.mul_self_sqrt (Nat.cast_nonneg (α := ℝ) n)
      rw [← heq] at this
      exact_mod_cast this
    exact (hnear.of_between hexp hlo Real.real_sqrt_lt_nat_sqrt_succ).nearestMag false

theorem fsqrt_of_pos {a : Word} (ha : isFinite a = true) (hpos : 0 < f32Val a) :
    fsqrt a = fround false
      (if (f32Mag a * 2 ^ 149).sqrt * (f32Mag a * 2 ^ 149).sqrt = f32Mag a * 2 ^ 149 then 2 * (f32Mag a * 2 ^ 149).sqrt
        else 2 * (f32Mag a * 2 ^ 149).sqrt + 1) 2 := by
  have hmag : f32Mag a ≠ 0 := by have := natAbs_f32Val a; omega
  have hbound : f32Mag a * 2 ^ 149 < 2 ^ 213 * 2 ^ 213 := by
    have hlt := f32Mag_lt_of_isInf ha (show isInf fInf = true by decide)
    rw [f32Mag_of_isInf (show isInf fInf = true by decide)] at hlt
    refine (Nat.mul_lt_mul_of_pos_right hlt (Nat.two_pow_pos 149)).trans_eq ?_
    norm_num
  simp only [fsqrt, isNaN_of_isFinite ha, isInf_of_isFinite ha, isZero, beq_false_of_ne hmag, f32Neg_of_f32Val_pos hpos,
    Bool.false_eq_true, if_false, isqrt_eq_sqrt hbound]

theorem roundsTo_fsqrt {a : Word} (ha : isFinite a = true) (hnonneg : 0 ≤ f32Val a) :
    RoundsTo (Real.sqrt ((f32Val a : ℝ) * 2 ^ 149)) (fsqrt a) ∧ f32Neg (fsqrt a) = f32Neg a := by
  rcases hnonneg.eq_or_lt with hzero | hpos
  · have hmag : isZero a = true := isZero_iff.mpr (by have := natAbs_f32Val a; omega)
    rw [fsqrt_of_isZero hmag, ← hzero, Int.cast_zero, zero_mul, Real.sqrt_zero]
    refine ⟨⟨isNaN_of_isFinite ha, fun w _ => ?_⟩, rfl⟩
    rw [← hzero, Int.cast_zero, sub_zero, abs_zero, sub_zero]
    exact ⟨abs_nonneg _, fun heq hne => absurd (by exact_mod_cast abs_eq_zero.mp heq.symm) hne⟩
  · have hneg := f32Neg_of_f32Val_pos hpos
    have hroot : 2 ^ 24 ≤ (f32Mag a * 2 ^ 149).sqrt := by
      rw [Nat.le_sqrt, ← Nat.pow_add]
      calc 2 ^ 48 ≤ 1 * 2 ^ 149 := by norm_num
        _ ≤ f32Mag a * 2 ^ 149 := Nat.mul_le_mul_right _ (by have := natAbs_f32Val a; omega)
    have hvalue : ((f32Val a : ℝ) * 2 ^ 149) = (f32Mag a * 2 ^ 149 : Nat) := by
      rw [f32Val_of_nonneg hneg, Nat.cast_mul, Nat.cast_pow, Nat.cast_ofNat, Int.cast_natCast]
    rw [hvalue, fsqrt_of_pos ha hpos, f32Neg_fround, hneg]
    refine ⟨?_, rfl⟩
    have hround := (nearestMag_sqrt hroot).roundsTo (Real.sqrt_nonneg _)
    rwa [f32Neg_fround] at hround

end Sys2Proof.Machine
end

/-! ## The statement about rounding -/

section
open Sys2Proof.Machine

/-- Settles O21: the shared rounding is nearest over the reals, scaled by the denominator; the primitives round their exact
results with it. -/
theorem roundingIsNearestEven : Obligations.RoundingIsNearestEven := by
  refine ⟨fun neg n d hd => ?_, fun a b ha hb => ?_, fun a ha hnonneg => roundsTo_fsqrt ha hnonneg⟩
  · obtain ⟨hnum, hnear⟩ := nearestMag_fround neg n hd
    have hpos : (0 : ℝ) < d := by exact_mod_cast hd
    refine ⟨hnum, f32Neg_fround neg n d, fun w hw => ?_⟩
    obtain ⟨hle, htie⟩ := hnear w hw
    refine ⟨?_, fun heq hne => htie ?_ hne⟩
    · have := mul_le_mul_of_nonneg_right hle hpos.le
      rw [abs_sub_div _ n hd, abs_sub_div _ n hd] at this
      exact_mod_cast this
    · refine mul_right_cancel₀ hpos.ne' ?_
      rw [abs_sub_div _ n hd, abs_sub_div _ n hd, heq]
  · refine ⟨roundsTo_fadd ha hb, roundsTo_fsub ha hb, roundsTo_fmul ha hb, roundsTo_fdiv ha hb, fun hzero => ?_, ?_,
      fun hne => ?_⟩
    · rw [fadd_of_finite ha hb, sumNeg, if_pos hzero, hzero, Int.natAbs_zero, fround_zero]
      cases f32Neg a && f32Neg b <;> rfl
    · rw [fmul_of_finite ha hb, f32Neg_fround]
      rfl
    · rw [fdiv_of_finite ha hb hne, f32Neg_fround]
      rfl

end

section
/-! The sine, the arctangent and the waveforms stay within the properties of 00_scope.md R22 and 42_oscillator.md R187. The
arctangent is odd and has the sign of its operand; its magnitude grows with the bits the envelope gives. -/

namespace Sys2Proof.Machine

/-! ## Magnitudes in the order of the bits -/

theorem f32Mag_f32Pack_mono (neg neg' : Bool) {m n : Nat} (hmn : m ≤ n) (hn : n < 2 ^ 31) :
    f32Mag (f32Pack neg m) ≤ f32Mag (f32Pack neg' n) := by
  have hm := hmn.trans_lt hn
  simp only [f32Mag, f32Exp_f32Pack neg hm, f32Frac_f32Pack neg hm, f32Exp_f32Pack neg' hn, f32Frac_f32Pack neg' hn]
  rcases (Nat.div_le_div_right (c := 2 ^ 23) hmn).eq_or_lt with hexp | hexp
  · rw [hexp]
    split
    · omega
    · exact Nat.mul_le_mul_right _ (by omega)
  · rw [if_neg (show n / 2 ^ 23 ≠ 0 by omega)]
    have hlead : 2 ^ 23 * 2 ^ (m / 2 ^ 23) ≤ (2 ^ 23 + n % 2 ^ 23) * 2 ^ (n / 2 ^ 23 - 1) :=
      Nat.mul_le_mul (by omega) (Nat.pow_le_pow_right (by decide) (by omega))
    refine le_trans ?_ hlead
    split
    next hzero =>
      rw [hzero]
      omega
    next hne =>
      calc (2 ^ 23 + m % 2 ^ 23) * 2 ^ (m / 2 ^ 23 - 1) ≤ 2 ^ 24 * 2 ^ (m / 2 ^ 23 - 1) := Nat.mul_le_mul_right _ (by omega)
        _ = 2 ^ 23 * 2 ^ (m / 2 ^ 23 - 1 + 1) := by rw [Nat.pow_succ]; omega
        _ = 2 ^ 23 * 2 ^ (m / 2 ^ 23) := by rw [Nat.sub_add_cancel (Nat.pos_of_ne_zero hne)]

/-- Numbers without a sign are in the order of their magnitudes. -/
theorem toNat_le_of_f32Mag_le {a b : Word} (ha : isNaN a = false) (hb : isNaN b = false) (hnegA : f32Neg a = false)
    (hnegB : f32Neg b = false) (h : f32Mag a ≤ f32Mag b) : a.toNat ≤ b.toNat := by
  by_contra hgt
  have hpack : ∀ w : Word, f32Neg w = false → f32Pack false w.toNat = w ∧ w.toNat < 2 ^ 31 := fun w hw => by
    have hlt : w.toNat < 2 ^ 31 := by simpa [f32Neg_eq_decide] using hw
    have := f32Pack_self w
    rw [hw, Nat.mod_eq_of_lt hlt] at this
    exact ⟨this, hlt⟩
  have hback := f32Mag_f32Pack_mono false false (not_le.mp hgt).le (hpack a hnegA).2
  rw [(hpack a hnegA).1, (hpack b hnegB).1] at hback
  have heq := eq_of_f32Mag_eq ha hb (hnegA.trans hnegB.symm) (h.antisymm hback)
  exact hgt (heq ▸ le_rfl)

/-! ## Within [-1, 1] -/

/-- A number of magnitude at most one is in [-1, 1]. -/
theorem in_unit_of_f32Mag_le {a : Word} (ha : isNaN a = false) (h : f32Mag a ≤ f32Mag fOne) :
    fle 0xBF800000 a = true ∧ fle a 0x3F800000 = true := by
  have habs := natAbs_f32Val a
  have hone : f32Val 0x3F800000 = f32Mag fOne := f32Val_of_nonneg (by decide)
  have hminus : f32Val 0xBF800000 = -(f32Mag fOne : Int) := f32Val_of_neg (by decide)
  exact ⟨fle_iff.mpr ⟨by decide, ha, by omega⟩, fle_iff.mpr ⟨ha, by decide, by omega⟩⟩

/-- `unitRange` gives a number in [-1, 1] (P-sin-2). -/
theorem unitRange_in_range (y : Word) :
    isNaN (unitRange y) = false ∧ fle 0xBF800000 (unitRange y) = true ∧ fle (unitRange y) 0x3F800000 = true := by
  have hrange : fle 0xBF800000 (unitRange y) = true ∧ fle (unitRange y) 0x3F800000 = true := by
    unfold unitRange
    split
    next => decide
    next hnum => exact clampf_in_range (lo := 0xBF800000) (hi := 0x3F800000) (by decide +kernel) (by simpa using hnum)
  exact ⟨(fle_iff.mp hrange.2).1, hrange⟩

theorem fsin_in_range (cfg : Config) {a : Word} (ha : isFinite a = true) :
    isNaN (fsin cfg a) = false ∧ fle 0xBF800000 (fsin cfg a) = true ∧ fle (fsin cfg a) 0x3F800000 = true := by
  unfold fsin
  rw [if_neg (by simp [ha])]
  split
  next => decide
  next => split <;> exact unitRange_in_range _

theorem waveFn_in_range (cfg : Config) (w : BitVec 2) {a : Word} (ha : isFinite a = true) (hlo : fle fZero a = true)
    (hhi : flt a twoPi = true) :
    isNaN (waveFn cfg w a) = false ∧ fle 0xBF800000 (waveFn cfg w a) = true ∧ fle (waveFn cfg w a) 0x3F800000 = true := by
  unfold waveFn
  split
  next => exact fsin_in_range cfg ha
  next =>
    rw [if_neg (by simp [ha]), if_pos (by simp [hlo, hhi])]
    exact unitRange_in_range _

/-! ## The arctangent of an operand above zero -/

theorem atanEnvelope_le (n : Nat) : atanEnvelope n ≤ halfPi.toNat := by
  induction n with
  | zero => exact Nat.zero_le _
  | succ n ih => exact max_le ih (min_le_right _ _)

theorem atanEnvelope_mono {m n : Nat} (h : m ≤ n) : atanEnvelope m ≤ atanEnvelope n :=
  monotone_nat_of_le_succ (f := atanEnvelope) (fun _ => le_max_left _ _) h

/-- Bits 30:0 of the arctangent of an operand above zero. -/
def atanBits (cfg : Config) (a : Word) : Nat :=
  if isInf a then halfPi.toNat
  else match cfg.num with
    | .any => atanEnvelope a.toNat
    | .correctlyRounded => min (atanReferenceBits a) halfPi.toNat

theorem atanBits_le (cfg : Config) (a : Word) : atanBits cfg a ≤ halfPi.toNat := by
  unfold atanBits
  split
  · exact le_rfl
  · split
    · exact atanEnvelope_le _
    · exact min_le_right _ _

/-- It is the word of these bits; only a zero can have its sign set. -/
theorem atanPositive_eq (cfg : Config) (a : Word) :
    ∃ neg, atanPositive cfg a = f32Pack neg (atanBits cfg a) ∧ (neg = true → atanBits cfg a = 0) := by
  unfold atanPositive atanBits
  split
  next => exact ⟨false, by decide, nofun⟩
  next =>
    cases cfg.num with
    | any => exact ⟨_, rfl, fun h => by simpa using (Bool.and_eq_true_iff.mp h).1⟩
    | correctlyRounded => exact ⟨false, rfl, nofun⟩

theorem f32Mag_atanPositive (cfg : Config) (a : Word) :
    f32Mag (atanPositive cfg a) = f32Mag (f32Pack false (atanBits cfg a)) := by
  obtain ⟨neg, heq, -⟩ := atanPositive_eq cfg a
  have hlt : atanBits cfg a < 2 ^ 31 := (atanBits_le cfg a).trans_lt (by decide)
  rw [heq]
  exact le_antisymm (f32Mag_f32Pack_mono _ _ le_rfl hlt) (f32Mag_f32Pack_mono _ _ le_rfl hlt)

/-- (P-atan-4) above zero. -/
theorem f32Mag_atanPositive_le (cfg : Config) (a : Word) : f32Mag (atanPositive cfg a) ≤ f32Mag halfPi := by
  rw [f32Mag_atanPositive]
  exact f32Mag_f32Pack_mono _ false (atanBits_le cfg a) (by decide)

/-- A word of at most π/2 is finite. -/
theorem isFinite_atanPositive (cfg : Config) (a : Word) : isFinite (atanPositive cfg a) = true := by
  obtain ⟨neg, heq, -⟩ := atanPositive_eq cfg a
  have hle : atanBits cfg a ≤ 0x3FC90FDB := atanBits_le cfg a
  rw [heq, isFinite_iff, f32Exp_f32Pack neg (by omega)]
  omega

theorem f32Val_atanPositive (cfg : Config) (a : Word) : f32Val (atanPositive cfg a) = f32Mag (atanPositive cfg a) := by
  obtain ⟨neg, heq, hzero⟩ := atanPositive_eq cfg a
  have hlt : atanBits cfg a < 2 ^ 31 := (atanBits_le cfg a).trans_lt (by decide)
  cases neg with
  | false => exact f32Val_of_nonneg (by rw [heq, f32Neg_f32Pack false hlt])
  | true =>
    rw [heq, hzero rfl]
    decide

/-- (P-atan-3) above zero, for the arbitrary function. -/
theorem atanBits_mono {cfg : Config} (hany : cfg.num = .any) {a b : Word} (ha : isNaN a = false) (hb : isNaN b = false)
    (hnegA : f32Neg a = false) (hnegB : f32Neg b = false) (h : f32Mag a ≤ f32Mag b) : atanBits cfg a ≤ atanBits cfg b := by
  cases hinfB : isInf b with
  | true =>
    rw [show atanBits cfg b = halfPi.toNat by simp [atanBits, hinfB]]
    exact atanBits_le cfg a
  | false =>
    have hfinB := (isFinite_or_isInf hb).resolve_right (by simp [hinfB])
    have hinfA : isInf a = false := Bool.eq_false_iff.mpr fun hinf => h.not_gt (f32Mag_lt_of_isInf hfinB hinf)
    simp only [atanBits, hinfA, hinfB, hany, Bool.false_eq_true, if_false]
    exact atanEnvelope_mono (toNat_le_of_f32Mag_le ha hb hnegA hnegB h)

/-! ## The arctangent (R22) -/

section
variable {cfg : Config} {a b : Word}

theorem fatan_of_nan (h : isNaN a = true) : fatan cfg a = qNaN := by simp [fatan, h]

theorem fatan_of_isZero (h : isZero a = true) : fatan cfg a = a := by
  simp [fatan, h, isNaN_of_isFinite (isFinite_of_isZero h)]

theorem fatan_of_pos (hnum : isNaN a = false) (hne : isZero a = false) (hneg : f32Neg a = false) :
    fatan cfg a = atanPositive cfg a := by
  simp [fatan, hnum, hne, hneg]

theorem fatan_of_neg (hnum : isNaN a = false) (hne : isZero a = false) (hneg : f32Neg a = true) :
    fatan cfg a = fneg (atanPositive cfg (fneg a)) := by
  simp [fatan, hnum, hne, hneg]

/-- The arctangent is odd (P-atan-2). -/
theorem fatan_fneg (hnum : isNaN a = false) : fatan cfg (fneg a) = fneg (fatan cfg a) := by
  cases hzero : isZero a with
  | true => rw [fatan_of_isZero hzero, fatan_of_isZero (by rwa [isZero_fneg])]
  | false =>
    cases hneg : f32Neg a with
    | true =>
      rw [fatan_of_neg hnum hzero hneg, fneg_fneg,
        fatan_of_pos (by rwa [isNaN_fneg]) (by rwa [isZero_fneg]) (by simp [hneg])]
    | false =>
      rw [fatan_of_pos hnum hzero hneg,
        fatan_of_neg (by rwa [isNaN_fneg]) (by rwa [isZero_fneg]) (by simp [hneg]), fneg_fneg]

/-- What holds of zeros, of operands above zero, and of the negation of what it holds of, holds of all numbers. -/
theorem number_cases {P : Word → Prop} (hzero : ∀ a, isZero a = true → P a)
    (hpos : ∀ a, isNaN a = false → isZero a = false → f32Neg a = false → P a)
    (hneg : ∀ a, isNaN a = false → P a → P (fneg a)) (hnum : isNaN a = false) : P a := by
  cases h0 : isZero a with
  | true => exact hzero a h0
  | false =>
    cases hsign : f32Neg a with
    | false => exact hpos a hnum h0 hsign
    | true =>
      have := hneg (fneg a) (by rwa [isNaN_fneg])
        (hpos (fneg a) (by rwa [isNaN_fneg]) (by rwa [isZero_fneg]) (by simp [hsign]))
      rwa [fneg_fneg] at this

/-- The arctangent of a number is finite and at most π/2 (P-atan-4). -/
theorem fatan_bounded (cfg : Config) (hnum : isNaN a = false) :
    isFinite (fatan cfg a) = true ∧ f32Mag (fatan cfg a) ≤ f32Mag halfPi := by
  refine number_cases (P := fun a => isFinite (fatan cfg a) = true ∧ f32Mag (fatan cfg a) ≤ f32Mag halfPi)
    (fun a hzero => ?_) (fun a hn h0 hsign => ?_) (fun a hn ih => ?_) hnum
  · rw [fatan_of_isZero hzero, isZero_iff.mp hzero]
    exact ⟨isFinite_of_isZero hzero, Nat.zero_le _⟩
  · rw [fatan_of_pos hn h0 hsign]
    exact ⟨isFinite_atanPositive cfg a, f32Mag_atanPositive_le cfg a⟩
  · rwa [fatan_fneg hn, isFinite_fneg, f32Mag_fneg]

/-- The arctangent of an infinity is π/2 with its sign (P-atan-5). -/
theorem fabs_fatan_of_isInf (h : isInf a = true) : fabs (fatan cfg a) = 0x3FC90FDB := by
  have hnum := isNaN_of_isInf h
  have h0 := isZero_of_isInf h
  cases hneg : f32Neg a with
  | true =>
    rw [fatan_of_neg hnum h0 hneg, atanPositive, if_pos (by rwa [isInf_fneg])]
    decide
  | false =>
    rw [fatan_of_pos hnum h0 hneg, atanPositive, if_pos h]
    decide

/-- The value of the arctangent of a number has the number's sign. -/
theorem f32Val_fatan (hnum : isNaN a = false) :
    f32Val (fatan cfg a) = if f32Neg a then -(f32Mag (fatan cfg a) : Int) else f32Mag (fatan cfg a) := by
  refine number_cases (P := fun a => f32Val (fatan cfg a) =
      if f32Neg a then -(f32Mag (fatan cfg a) : Int) else f32Mag (fatan cfg a))
    (fun a hzero => ?_) (fun a hn h0 hsign => ?_) (fun a hn ih => ?_) hnum
  · rw [fatan_of_isZero hzero]
    rfl
  · rw [fatan_of_pos hn h0 hsign, hsign, f32Val_atanPositive]
    rfl
  · rw [fatan_fneg hn, f32Val_fneg, f32Mag_fneg, f32Neg_fneg, ih]
    cases f32Neg a <;> simp

theorem f32Mag_fatan (hnum : isNaN a = false) (h0 : isZero a = false) :
    f32Mag (fatan cfg a) = f32Mag (f32Pack false (atanBits cfg (fabs a))) := by
  have hfabs : f32Mag (fatan cfg a) = f32Mag (fatan cfg (fabs a)) := by
    cases hneg : f32Neg a with
    | true =>
      have : fabs a = fneg a := eq_of_f32Mag_eq (by simpa) (by simpa) (by simp [hneg]) (by simp)
      rw [this, fatan_fneg hnum, f32Mag_fneg]
    | false =>
      have : fabs a = a := eq_of_f32Mag_eq (by simpa) hnum (by simp [hneg]) (by simp)
      rw [this]
  rw [hfabs, fatan_of_pos (by simpa) (by simpa) (by simp), f32Mag_atanPositive]

/-- The magnitude of the arctangent does not decrease with that of the operand, for the arbitrary function. -/
theorem f32Mag_fatan_mono (hany : cfg.num = .any) (ha : isNaN a = false) (hb : isNaN b = false)
    (h : f32Mag a ≤ f32Mag b) : f32Mag (fatan cfg a) ≤ f32Mag (fatan cfg b) := by
  cases ha0 : isZero a with
  | true =>
    rw [fatan_of_isZero ha0, isZero_iff.mp ha0]
    exact Nat.zero_le _
  | false =>
    have hb0 : isZero b = false := by
      simp only [isZero, beq_eq_false_iff_ne] at ha0 ⊢
      omega
    rw [f32Mag_fatan ha ha0, f32Mag_fatan hb hb0]
    refine f32Mag_f32Pack_mono _ _ ?_ ((atanBits_le cfg _).trans_lt (by decide))
    exact atanBits_mono hany (by simpa) (by simpa) (by simp) (by simp) (by simpa)

/-- (P-atan-3), for the arbitrary function. -/
theorem fatan_mono (hany : cfg.num = .any) (h : fle a b = true) : fle (fatan cfg a) (fatan cfg b) = true := by
  obtain ⟨ha, hb, hle⟩ := fle_iff.mp h
  refine fle_iff.mpr ⟨isNaN_of_isFinite (fatan_bounded cfg ha).1, isNaN_of_isFinite (fatan_bounded cfg hb).1, ?_⟩
  have hmono := f32Mag_fatan_mono hany ha hb
  have hmono' := f32Mag_fatan_mono hany hb ha
  rw [f32Val_fatan ha, f32Val_fatan hb]
  rw [f32Val, f32Val] at hle
  cases hnegA : f32Neg a <;> cases hnegB : f32Neg b <;>
    simp only [hnegA, hnegB, if_true, if_false, Bool.false_eq_true] at hle ⊢
  · have := hmono (by omega)
    omega
  · have hzero : isZero a = true ∧ isZero b = true := ⟨isZero_iff.mpr (by omega), isZero_iff.mpr (by omega)⟩
    rw [fatan_of_isZero hzero.1, fatan_of_isZero hzero.2]
    exact hle
  · omega
  · have := hmono' (by omega)
    omega

end

end Sys2Proof.Machine
end

/-! ## The statement about the sine, the arctangent and the waveforms -/

section
open Sys2Proof Sys2Proof.Machine

/-- Settles O31: the sine and the waveforms are kept in range, the arctangent is the odd continuation of a bounded one. -/
theorem transcendentalProperties : Obligations.TranscendentalProperties := by
  intro cfg
  refine ⟨rfl, fun a ha => (fsin_in_range cfg ha).2, fun a => fsin_of_not_finite cfg, fatan_of_isZero (by decide),
    fatan_of_isZero (by decide), fun a => fatan_fneg, fun hany a b => fatan_mono hany, fun a ha => ?_,
    fun a => fabs_fatan_of_isInf, fun a => fatan_of_nan, fun a => if_pos rfl, fun w a => waveFn_in_range cfg w,
    fun w a => waveFn_of_not_finite cfg w⟩
  obtain ⟨hfin, hle⟩ := fatan_bounded cfg ha
  refine fle_iff.mpr ⟨by rw [isNaN_fabs]; exact isNaN_of_isFinite hfin, by decide, ?_⟩
  rw [f32Val_fabs, f32Val_of_nonneg (a := 0x3FC90FDB) (by decide)]
  exact_mod_cast hle

end

section
/-! The waveshaper and the tremolo (44_waveshaper.md, 45_effect_kernels.md R263, R268): the commands, the cases of the transfer
functions, and the settings under which they change nothing. -/

namespace Sys2Proof.Machine

/-! ## SHAPE and DIST (R230, R268) -/

theorem modeNotDesigned_of_runs {s : State} (h : ShapeRuns s) : modeNotDesigned s = false := by
  refine Bool.eq_false_iff.mpr fun hstop => ?_
  obtain ⟨hmode, hopen⟩ := modeNotDesigned_iff.mp hstop
  rcases h with hrun | hother
  · rw [hrun] at hopen
    cases hopen
  · exact hother hmode

theorem exec_dist {s : State} (rd ra : Reg) (hport : s.ports.port = .a) :
    exec (.dist rd ra) s = shapeEffect rd (fmul (reg s ra) s.csr.kgain) s :=
  command_of_legal ((illegality_plain_iff rfl rfl rfl rfl rfl).mpr hport) _

/-- One draw in mode 6 (R237). -/
theorem draws_shapeDraws (m : Word) (n : Nat) : n + shapeDraws m = if m = 6 then n + 1 else n := by
  have hiff : m.toNat = 6 ↔ m = 6 := ⟨fun h => BitVec.eq_of_toNat_eq h, fun h => h ▸ rfl⟩
  simp only [shapeDraws, hiff]
  split <;> rfl

theorem shapeEffect_of_runs {s : State} (h : ShapeRuns s) (rd : Reg) (x : Word) :
    shapeEffect rd x s = .next
      { s with
        d := s.d.set rd.toNat (shape s s.csr.mode x) rd.isLt
        events := responded s (shape s s.csr.mode x)
        draws := if s.csr.mode = 6 then s.draws + 1 else s.draws } := by
  rw [shapeEffect_of_designed (modeNotDesigned_of_runs h), ← draws_shapeDraws]
  rfl

/-! ## The transfer functions (R232 to R238) -/

/-- A draw lies in [0, 1) (10_state.md R59). -/
theorem drawAt_in_range (n : Nat) : fle fZero (drawAt n) = true ∧ flt (drawAt n) fOne = true := by
  unfold drawAt
  split
  next h => simpa using h
  next => decide +kernel

section
variable {a b : Word}

theorem flt_of_flt_of_fle {c : Word} (hab : flt a b = true) (hbc : fle b c = true) : flt a c = true := by
  obtain ⟨ha, -, hlt⟩ := flt_iff.mp hab
  obtain ⟨-, hc, hle⟩ := fle_iff.mp hbc
  exact flt_iff.mpr ⟨ha, hc, hlt.trans_le hle⟩

theorem flt_of_nan_right (h : isNaN b = true) : flt a b = false := by simp [flt, h]

end

section
variable {g : GapClamp} {lo hi x : Word}

theorem shapeGap_of_below (h : flt (fabs x) lo = true) : shapeGap g lo hi x = x := by simp [shapeGap, h]

theorem shapeGap_of_gap (hlo : flt (fabs x) lo = false) (hhi : fle (fabs x) hi = true) :
    shapeGap g lo hi x = withSignOf x (gapBoundary g (fabs x) lo hi) := by
  simp [shapeGap, hlo, hhi]

theorem shapeGap_of_above (hlo : flt (fabs x) lo = false) (hhi : fle (fabs x) hi = false) (h : fgt (fabs x) hi = true) :
    shapeGap g lo hi x = withSignOf x (fsub (fabs x) (fsub hi lo)) := by
  simp [shapeGap, hlo, hhi, h]

theorem shapeGap_of_nan (hlo : flt (fabs x) lo = false) (hhi : fle (fabs x) hi = false) (h : fgt (fabs x) hi = false) :
    shapeGap g lo hi x = qNaN := by
  simp [shapeGap, hlo, hhi, h]

end

theorem shapeDropout_of_drop {p u : Word} (g x : Word) (h : flt u p = true) : shapeDropout p g u x = fZero := if_pos h

theorem shapeDropout_of_keep {p u : Word} (g x : Word) (h : flt u p = false) : shapeDropout p g u x = fmul x g :=
  if_neg (by simp [h])

/-! ## The identity settings (R241) -/

section
variable {x : Word}

theorem withSignOf_fabs (h : isNaN x = false) : withSignOf x (fabs x) = x := by
  unfold withSignOf
  split
  next hneg => exact eq_of_f32Mag_eq (by simpa) h (by simp [hneg]) (by simp)
  next hneg => exact eq_of_f32Mag_eq (by simpa) h (by simpa using (Bool.eq_false_iff.mpr hneg).symm) (by simp)

/-- Equal thresholds: the gap is one magnitude, and what is above is moved by nothing. -/
theorem shapeGap_same {th : Word} (g : GapClamp) (hth : isNaN th = false) (hpos : f32Neg th = false)
    (hx : isNaN x = false) : shapeGap g th th x = x := by
  have hfabs : isNaN (fabs x) = false := by simpa
  cases hbelow : flt (fabs x) th with
  | true => exact shapeGap_of_below hbelow
  | false =>
    have hge := (flt_eq_false_iff hfabs hth).mp hbelow
    cases hle : fle (fabs x) th with
    | true =>
      have hval : f32Val (fabs x) = f32Val th := (fle_iff.mp hle).2.2.antisymm (fle_iff.mp hge).2.2
      rw [f32Val_of_nonneg (f32Neg_fabs x), f32Val_of_nonneg hpos, Int.natCast_inj] at hval
      have hsame : th = fabs x := eq_of_f32Mag_eq hth hfabs (by simp [hpos]) hval.symm
      have hboundary : gapBoundary g (fabs x) th th = fabs x := by cases g <;> simp [gapBoundary, ← hsame]
      rw [shapeGap_of_gap hbelow hle, hboundary, withSignOf_fabs hx]
    | false =>
      have habove : fgt (fabs x) th = true := by
        by_contra hnot
        rw [(flt_eq_false_iff hth hfabs).mp (by simpa [fgt] using hnot)] at hle
        cases hle
      obtain ⟨-, -, hlt⟩ := flt_iff.mp habove
      rw [f32Val_of_nonneg (f32Neg_fabs x), f32Val_of_nonneg hpos] at hlt
      have hfinite : isFinite th = true := (isFinite_or_isInf hth).resolve_right fun hinf => by
        have := f32Mag_le_of_number hfabs
        rw [← f32Mag_of_isInf hinf] at this
        omega
      have hmoved : fsub (fabs x) fZero = fabs x := by
        rcases isFinite_or_isInf hfabs with hfin | hinf
        · exact fadd_of_isZero_right hfin (by omega) (by decide)
        · exact fadd_of_isInf_left hinf (by decide)
      rw [shapeGap_of_above hbelow hle habove, fsub_self hfinite, hmoved, withSignOf_fabs hx]

/-- Nothing is above +inf, nothing below -inf. -/
theorem flt_fInf_left (x : Word) : flt fInf x = false := by
  refine Bool.eq_false_iff.mpr fun h => ?_
  obtain ⟨-, hnum, hlt⟩ := flt_iff.mp h
  have hle := f32Mag_le_of_number hnum
  rw [← f32Mag_of_isInf (show isInf fInf = true by decide)] at hle
  have habs := natAbs_f32Val x
  rw [f32Val_of_nonneg (show f32Neg fInf = false by decide)] at hlt
  omega

theorem flt_neg_fInf_right (x : Word) : flt x (fneg fInf) = false := by
  have := flt_fInf_left (fneg x)
  simp only [flt, isNaN_fneg, f32Val_fneg] at this ⊢
  rw [← this, Bool.and_comm (!isNaN x)]
  congr 2
  exact propext (by omega)

theorem shapeFold_fInf (x : Word) : shapeFold fInf x = x := by
  simp [shapeFold, fgt, flt_fInf_left, flt_neg_fInf_right]

end

/-! ## The tremolo at depth zero (R263) -/

/-- Any finite LFO value times a depth of +0.0 is a zero, and one plus a zero is one. -/
theorem tremEnvelope_of_depth_zero {s : State} {l : Word} (hdepth : s.csr.kdepth = 0) (hl : isFinite l = true) :
    tremEnvelope s l = fOne := by
  have hzero : isZero (fmul 0 l) = true := by
    rw [fmul_of_finite (by decide) hl, show f32Mag 0 = 0 by decide, Nat.zero_mul, fround_zero]
    cases signOf 0 l <;> decide
  have hone : fsub fOne 0 = fOne := fadd_of_isZero_right isFinite_fOne (by decide) (by decide)
  rw [tremEnvelope, hdepth, hone, fadd_comm, fadd_of_isZero_right isFinite_fOne (by decide) hzero]

theorem tremValue_of_depth_zero {s : State} {l : Word} (x : Word) (hdepth : s.csr.kdepth = 0) (hl : isFinite l = true) :
    tremValue s x l = fmul x s.csr.kgain := by
  rw [tremValue, tremEnvelope_of_depth_zero hdepth hl]
  cases hnan : isNaN x with
  | true => rw [fmul_of_nan (.inl hnan), fmul_of_nan (.inl isNaN_qNaN), fmul_of_nan (.inl hnan)]
  | false => rw [fmul_fOne hnan]

/-! ## Mode 1 is bounded (R232, 00_scope.md R23) -/

/-- Rounding does not pass a number: what is at most a number's magnitude is rounded to at most that magnitude. -/
theorem f32Mag_fround_le (neg : Bool) {n d : Nat} (hd : 0 < d) {w : Word} (hw : isNaN w = false)
    (h : n ≤ f32Mag w * d) : f32Mag (fround neg n d) ≤ f32Mag w := by
  have hpos : (0 : ℝ) < d := by exact_mod_cast hd
  have hle : (n : ℝ) / d ≤ f32Mag w := by
    rw [div_le_iff₀ hpos]
    exact_mod_cast h
  have hnear := ((nearestMag_fround neg n hd).2 w hw).1
  rw [abs_of_nonneg (show (0 : ℝ) ≤ f32Mag w - n / d by linarith)] at hnear
  have := (abs_le.mp hnear).2
  exact_mod_cast (by linarith : (f32Mag (fround neg n d) : ℝ) ≤ f32Mag w)

theorem twoOverPi_mul_halfPi_le : f32Mag twoOverPi * f32Mag halfPi ≤ f32Mag fOne * 2 ^ 149 := by decide +kernel

theorem shapeAtan_bounded (cfg : Config) {k x : Word} (h : isNaN (fmul k x) = false) :
    isNaN (shapeAtan cfg k x) = false ∧ f32Mag (shapeAtan cfg k x) ≤ f32Mag fOne := by
  obtain ⟨hfin, hle⟩ := fatan_bounded cfg h
  rw [shapeAtan, fmul_of_finite (by decide) hfin]
  refine ⟨isNaN_fround .., f32Mag_fround_le _ (Nat.two_pow_pos 149) (by decide) ?_⟩
  exact (Nat.mul_le_mul_left _ hle).trans twoOverPi_mul_halfPi_le

end Sys2Proof.Machine
end

/-! ## The statements about the waveshaper and the tremolo -/

section
open Sys2Proof Sys2Proof.Machine

/-- Settles O37: both commands are legal on the A-port and have the one effect of the waveshaper. -/
theorem shapeAndDist : Obligations.ShapeAndDist := by
  intro s rd ra hport hruns row hrow
  simp only [List.mem_cons, List.not_mem_nil, or_false] at hrow
  rcases hrow with rfl | rfl
  · exact (exec_shape rd ra hport).trans (shapeEffect_of_runs hruns rd _)
  · exact (exec_dist rd ra hport).trans (shapeEffect_of_runs hruns rd _)

/-- Settles O38: the definitions mode by mode, the cases of the gap, and the draw in [0, 1). -/
theorem transferFunctions : Obligations.TransferFunctions := by
  intro s x
  obtain ⟨hlo, hhi⟩ := drawAt_in_range s.draws
  refine ⟨rfl, rfl, rfl, ⟨shapeGap_of_below, fun hl hh hg => ?_, fun hl hh hg => ?_, shapeGap_of_above, shapeGap_of_nan⟩,
    rfl, rfl, ⟨hlo, hhi⟩, fun hp => shapeDropout_of_drop _ x (flt_of_flt_of_fle hhi hp),
    fun hp => shapeDropout_of_keep _ x ?_, rfl⟩
  · refine (shapeGap_of_gap hl hh).trans ?_
    rw [hg]
    rfl
  · refine (shapeGap_of_gap hl hh).trans ?_
    rw [hg]
    rfl
  · rcases hp with hp | hp
    · exact not_flt_of_fle (fle_trans hp hlo)
    · exact flt_of_nan_right hp

/-- Settles O40: π/2 is the largest arctangent, and times TWO_OVER_PI it is at most one before rounding. -/
theorem softClipIsBounded : Obligations.SoftClipIsBounded := fun cfg _ _ h =>
  in_unit_of_f32Mag_le (shapeAtan_bounded cfg h).1 (shapeAtan_bounded cfg h).2

/-- Settles O41. -/
theorem identitySettings : Obligations.IdentitySettings :=
  ⟨fun g _ _ hth hpos hx => shapeGap_same g hth hpos hx,
    fun n x hx => (shapeDropout_of_keep fOne x (not_flt_of_fle (drawAt_in_range n).1)).trans (fmul_fOne hx),
    shapeFold_fInf⟩

/-- Settles O43: TREM is legal on the A-port, and at depth zero its envelope is one. -/
theorem tremComputes : Obligations.TremComputes := fun _ _ _ _ hport =>
  ⟨command_of_legal ((illegality_plain_iff rfl rfl rfl rfl rfl).mpr hport) _, tremValue_of_depth_zero _⟩

end

section
/-! The round trip of the delay line (43_delay_line.md R212): an integer delay is read without interpolation in every mode, and
fewer than CAP writes leave the word behind them alone. -/

namespace Sys2Proof.Machine

/-! ## Integer delays (R205, R206) -/

section
variable {n : Nat}

theorem integralLike_u2f (h : n ≤ 2 ^ 24) : integralLike (u2f n) n = u2f n := by
  rw [integralLike, (u2f_exact h).2.1]
  rfl

theorem ffloor_u2f (h : n ≤ 2 ^ 24) : ffloor (u2f n) = u2f n := by
  obtain ⟨hmag, hneg, hfin⟩ := u2f_exact h
  rw [ffloor_of_finite hfin, hneg, if_neg Bool.false_ne_true, magFloor, hmag, Nat.mul_div_cancel _ (Nat.two_pow_pos 149),
    integralLike_u2f h]

theorem frint_u2f (h : n ≤ 2 ^ 24) : frint (u2f n) = u2f n := by
  obtain ⟨hmag, -, hfin⟩ := u2f_exact h
  rw [frint_of_finite hfin, hmag, divNearestEven_mul n (Nat.two_pow_pos 149), integralLike_u2f h]

theorem delayIndex_u2f (h : n ≤ 2 ^ 24) : delayIndex (u2f n) = n := by rw [delayIndex, ffloor_u2f h, f2u_u2f h]

theorem delayIntegral_u2f (h : n ≤ 2 ^ 24) : delayIntegral (u2f n) = true := by
  rw [delayIntegral, delayFrac, ffloor_u2f h, fsub_self (u2f_exact h).2.2]
  decide

theorem f32Val_u2f (h : n ≤ 2 ^ 24) : f32Val (u2f n) = n * 2 ^ 149 := by
  obtain ⟨hmag, hneg, -⟩ := u2f_exact h
  rw [f32Val_of_nonneg hneg, hmag, Nat.cast_mul, Nat.cast_pow, Nat.cast_ofNat]

theorem flt_u2f {m : Nat} (h : n < m) (hm : m ≤ 2 ^ 24) : flt (u2f n) (u2f m) = true := by
  have hn := h.le.trans hm
  refine flt_iff.mpr ⟨isNaN_of_isFinite (u2f_exact hn).2.2, isNaN_of_isFinite (u2f_exact hm).2.2, ?_⟩
  rw [f32Val_u2f hn, f32Val_u2f hm]
  exact mul_lt_mul_of_pos_right (by exact_mod_cast h) (by positivity)

theorem fle_zero_u2f (h : n ≤ 2 ^ 24) : fle fZero (u2f n) = true :=
  fle_zero_iff.mpr ⟨isNaN_of_isFinite (u2f_exact h).2.2, f32Val_nonneg (u2f_exact h).2.1⟩

/-- An integer delay below CAP is in range in every mode. -/
theorem delayInRange_u2f {s : State} (hn : n < cap s) (hcap : cap s ≤ 2 ^ 24) (mode : Interp) :
    delayInRange s (u2f n) mode = true := by
  have h := hn.le.trans hcap
  cases mode <;>
    simp [delayInRange, (u2f_exact h).2.2, fle_zero_u2f h, flt_u2f hn hcap, delayIntegral_u2f h, frint_u2f h, f2u_u2f h, hn]

/-- In every mode it reads the one word at that delay. -/
theorem tapValue_u2f (h : n ≤ 2 ^ 24) (s : State) (c : Chan) (mode : Interp) (t : Slot) :
    tapValue s c (u2f n) mode t = tapWord s c n := by
  cases mode with
  | none => rw [tapValue, frint_u2f h, f2u_u2f h]
  | linear | allpass | cubic => simp only [tapValue, delayIntegral_u2f h, if_true, delayIndex_u2f h]

end

/-! ## Later writes (R201, R202) -/

/-- A write to one word of a line leaves the others. -/
theorem sample_storeSample_other {s : State} {c : Chan} {i : Nat} (h : i ≠ (dline s c).w) (v : Word) :
    sample (storeSample c v s) c i = sample s c i :=
  readWord_writeWord_other s.mem (dlAddr_disjoint (.inr h)) v

theorem sample_storeSample_same {s : State} (h : memoryWf s.mem) (c : Chan) (v : Word) :
    sample (storeSample c v s) c (dline s c).w = v :=
  readWord_writeWord_same h (storeAddr s c) v

@[simp] theorem sample_advance (c k : Chan) (i : Nat) (s : State) : sample (advance c s) k i = sample s k i := rfl

@[simp] theorem cap_laterSteps (c : Chan) (ws : List Word) (s : State) : cap (laterSteps c ws s) = cap s := by
  induction ws generalizing s with
  | nil => rfl
  | cons v ws ih => exact (ih _).trans ((cap_storeSample c v _).trans (cap_advance c s))

/-- Each sample step moves the write index on by one. -/
theorem index_laterSteps {c : Chan} {s : State} (h : (dline s c).w < cap s) (ws : List Word) :
    (dline (laterSteps c ws s) c).w = ((dline s c).w + ws.length) % cap s := by
  induction ws generalizing s with
  | nil => exact (Nat.mod_eq_of_lt h).symm
  | cons v ws ih =>
    have hnext : (dline (storeSample c v (advance c s)) c).w = ((dline s c).w + 1) % cap s := by
      rw [dline_storeSample, dline_advance_same]
    have hcap : cap (storeSample c v (advance c s)) = cap s := by rw [cap_storeSample, cap_advance]
    rw [laterSteps, ih (by rw [hnext, hcap]; exact Nat.mod_lt _ (by omega)), hnext, hcap, Nat.mod_add_mod,
      List.length_cons]
    congr 1
    omega

/-- A word no sample step writes to stays. -/
theorem sample_laterSteps {c : Chan} {i : Nat} {s : State} (ws : List Word)
    (h : ∀ j, 1 ≤ j → j ≤ ws.length → i ≠ ((dline s c).w + j) % cap s) :
    sample (laterSteps c ws s) c i = sample s c i := by
  induction ws generalizing s with
  | nil => rfl
  | cons v ws ih =>
    have hnext : (dline (advance c s) c).w = ((dline s c).w + 1) % cap s := by rw [dline_advance_same]
    rw [laterSteps, ih, sample_storeSample_other (by rw [hnext]; exact h 1 le_rfl (by simp)), sample_advance]
    intro j h1 hj
    rw [dline_storeSample, hnext, cap_storeSample, cap_advance, Nat.mod_add_mod, Nat.add_assoc]
    exact h (1 + j) (by omega) (by rw [List.length_cons]; omega)

/-- `n` places behind the index that went on by `n` is where it was. -/
theorem index_behind {w n cap : Nat} (h : w < cap) : ((((w + n) % cap : Nat) - n : Int) % (cap : Int)).toNat = w := by
  rw [Int.natCast_emod, Int.emod_sub_emod, Nat.cast_add, add_sub_cancel_right, ← Int.natCast_emod, Nat.mod_eq_of_lt h]
  rfl

/-- Fewer than CAP steps on, the index has not come round again. -/
theorem add_mod_ne_self {w j cap : Nat} (hw : w < cap) (h1 : 1 ≤ j) (hj : j < cap) : w ≠ (w + j) % cap := by
  rcases lt_or_ge (w + j) cap with hlt | hge
  · rw [Nat.mod_eq_of_lt hlt]
    omega
  · rw [Nat.mod_eq_sub_mod hge, Nat.mod_eq_of_lt (by omega)]
    omega

end Sys2Proof.Machine
end

/-! ## The statement about the round trip -/

section
open Sys2Proof Sys2Proof.Machine

/-- Settles O36: an integer delay reads one word in every mode, and the steps in between write to others. -/
theorem delayLineRoundTrip : Obligations.DelayLineRoundTrip := by
  intro s c v ws mode k hwf hw hcap hlen
  have hlen24 : ws.length ≤ 2 ^ 24 := hlen.le.trans hcap
  have hkept : sample (laterSteps c ws (storeSample c v s)) c (dline s c).w = v := by
    rw [sample_laterSteps ws, sample_storeSample_same hwf]
    exact fun j h1 hj => add_mod_ne_self hw h1 (hj.trans_lt hlen)
  have hcap' : cap (laterSteps c ws (storeSample c v s)) = cap s := by rw [cap_laterSteps, cap_storeSample]
  have hvalue : tapValue (laterSteps c ws (storeSample c v s)) c (u2f ws.length) mode k = v := by
    rw [tapValue_u2f hlen24, tapWord, hcap', index_laterSteps (by exact hw), dline_storeSample, cap_storeSample,
      index_behind hw, hkept]
  have hrange := delayInRange_u2f (s := laterSteps c ws (storeSample c v s)) (n := ws.length) (hcap'.symm ▸ hlen)
    (hcap'.symm ▸ hcap) mode
  exact ⟨_, by rw [tapRead_of_inRange hrange, hvalue]⟩

end

section
/-! The state codec (46_state_codec.md, 20_memory.md R75): what the image holds at each offset, and what the single steps of
ENC and DEC leave. -/

namespace Sys2Proof.Machine

/-! ## The image (R75, R281) -/

theorem bytesOfWord_length (e : Endian) (w : Word) : (bytesOfWord e w).length = 4 := by cases e <;> rfl

theorem bytesOfWord_getElem? (e : Endian) (w : Word) {k : Nat} (hk : k < 4) :
    (bytesOfWord e w)[k]? = some (w.extractLsb' (if e = .le then 8 * k else 24 - 8 * k) 8) := by
  cases e <;> interval_cases k <;> rfl

theorem wordOfBytes_eq (e : Endian) (b0 b1 b2 b3 : Byte) :
    wordOfBytes e b0 b1 b2 b3 = if e = .le then b3 ++ b2 ++ b1 ++ b0 else b0 ++ b1 ++ b2 ++ b3 := by
  cases e <;> rfl

section
variable {α : Type}

theorem length_flatMap_range_four {f : Nat → List α} (hf : ∀ p, (f p).length = 4) (n : Nat) :
    ((List.range n).flatMap f).length = 4 * n := by
  simp [List.length_flatMap, hf, Nat.mul_comm]

/-- Blocks of four: the offset names the block and the place in it. -/
theorem getElem?_flatMap_range_four {f : Nat → List α} (hf : ∀ p, (f p).length = 4) {n p k : Nat} (hp : p < n)
    (hk : k < 4) : ((List.range n).flatMap f)[4 * p + k]? = (f p)[k]? := by
  induction n with
  | zero => omega
  | succ n ih =>
    have hlen := length_flatMap_range_four hf n
    rw [List.range_succ, List.flatMap_append, List.flatMap_singleton]
    rcases Nat.lt_succ_iff_lt_or_eq.mp hp with hlt | rfl
    · rw [List.getElem?_append_left (by omega), ih hlt]
    · rw [List.getElem?_append_right (by omega), hlen, Nat.add_sub_cancel_left]

end

theorem markLast_length (bs : List Byte) : (markLast bs).length = bs.length := by
  induction bs with
  | nil => rfl
  | cons b bs ih => cases bs with
    | nil => rfl
    | cons c cs => simpa [markLast] using ih

/-- The mark stands on the last byte and on no other. -/
theorem markLast_getElem? (bs : List Byte) (i : Nat) :
    (markLast bs)[i]? = bs[i]?.map fun b => { byte := b, last := decide (i + 1 = bs.length) } := by
  induction bs generalizing i with
  | nil => simp [markLast]
  | cons b bs ih => cases bs with
    | nil => cases i <;> simp [markLast]
    | cons c cs =>
      rw [markLast]
      · cases i with
        | zero => simp
        | succ i => simp only [List.getElem?_cons_succ, ih, List.length_cons, Nat.add_right_cancel_iff]
      · exact nofun

theorem imageBytes_length (s : State) : (imageBytes s).length = 4 * s.cfg.nParam :=
  length_flatMap_range_four (fun _ => bytesOfWord_length _ _) _

theorem image_length (s : State) : (image s).length = 4 * s.cfg.nParam := by
  rw [image, markLast_length, imageBytes_length]

/-- Byte `k` of parameter `p`, and whether it is the last of the image. -/
def imageByte (s : State) (p k : Nat) : StreamByte where
  byte := (param s (BitVec.ofNat 5 p)).extractLsb' (if s.cfg.stateEndian = .le then 8 * k else 24 - 8 * k) 8
  last := decide (p + 1 = s.cfg.nParam ∧ k = 3)

theorem image_getElem? (s : State) {p k : Nat} (hp : p < s.cfg.nParam) (hk : k < 4) :
    (image s)[4 * p + k]? = some (imageByte s p k) := by
  have hbyte : (imageBytes s)[4 * p + k]? = _ := getElem?_flatMap_range_four (fun _ => bytesOfWord_length _ _) hp hk
  rw [image, markLast_getElem?, hbyte, bytesOfWord_getElem? _ _ hk, imageBytes_length]
  simp only [Option.map_some, imageByte, Option.some.injEq, StreamByte.mk.injEq, decide_eq_decide, true_and]
  omega

/-! ## ENC (R281) -/

section
variable {s : State}

theorem encContinue_of_room {rest : List StreamByte} (h : rest.length ≤ s.ports.soRoom) :
    encContinue rest s =
      { s with
        ports := { s.ports with stream := .idle, soRoom := s.ports.soRoom - rest.length }
        events := { s.events with
          rsps := s.events.rsps ++ [{ port := s.ports.port, word := BitVec.ofNat 32 (4 * s.cfg.nParam) }]
          so := s.events.so ++ rest } } := by
  rw [encContinue, if_pos h]
  rfl

theorem encContinue_of_full {rest : List StreamByte} (h : s.ports.soRoom < rest.length) :
    encContinue rest s =
      { s with
        ports := { s.ports with stream := .enc (rest.drop s.ports.soRoom), soRoom := 0 }
        events := { s.events with so := s.events.so ++ rest.take s.ports.soRoom } } := by
  rw [encContinue, if_neg (by omega)]
  simp [setStream, takeRoom, emitSo]

theorem exec_enc (hport : s.ports.port = .c) : exec .enc s = .next (encContinue (image s) s) :=
  command_of_legal (illegality_enc_iff.mpr hport) _

/-! ## DEC (R283, R284) -/

theorem exec_dec (hport : s.ports.port = .c) : exec .dec s = .next (decContinue 0 [] s) :=
  command_of_legal (illegality_dec_iff.mpr hport) _

section
variable {cfg : Config} {n : Nat} {pending : List Byte} {bs : List StreamByte}

/-- Bytes that complete a group. -/
theorem decScan_group (hn : n < cfg.nParam) (hbs : ∀ b ∈ bs, b.last = false) {x : StreamByte} {b0 b1 b2 b3 : Byte}
    (hgroup : pending ++ bs.map (·.byte) ++ [x.byte] = [b0, b1, b2, b3]) (rest : List StreamByte) :
    decScan cfg n pending (bs ++ x :: rest) =
      { n := n + 1, pending := [], rest := rest
        group := some (BitVec.ofNat 5 n, wordOfBytes cfg.stateEndian b0 b1 b2 b3), done := x.last } := by
  obtain ⟨hfirst, hlast⟩ := List.append_inj' (s₂ := [b0, b1, b2]) (t₂ := [b3]) hgroup rfl
  have hlen := congrArg List.length hfirst
  simp only [List.length_append, List.length_map, List.length_cons, List.length_nil] at hlen
  rw [decScan_keeps hn _ bs pending hbs (by omega), hfirst, decScan_completes hn, List.singleton_inj.mp hlast]

/-- A byte marked last that completes no group. -/
theorem decScan_short (h : cfg.nParam ≤ n ∨ pending.length + bs.length < 3) (hbs : ∀ b ∈ bs, b.last = false)
    {x : StreamByte} (hx : x.last = true) (rest : List StreamByte) :
    decScan cfg n pending (bs ++ x :: rest) = { n := n, pending := [], rest := rest, group := none, done := true } := by
  rcases le_or_gt cfg.nParam n with hn | hn
  · rw [decScan_skips hn _ _ bs hbs, decScan_ends hx (.inl hn)]
  · have hlen := h.resolve_left (by omega)
    rw [decScan_keeps hn _ bs pending hbs (by omega), decScan_ends hx (.inr _)]
    simp only [List.length_append, List.length_map]
    omega

/-- Bytes that neither complete a group nor end the stream. -/
theorem decScan_part (hn : n < cfg.nParam) (hbs : ∀ b ∈ bs, b.last = false) (hlen : pending.length + bs.length ≤ 3) :
    decScan cfg n pending bs = { n := n, pending := pending ++ bs.map (·.byte), rest := [], group := none, done := false } := by
  have := decScan_keeps hn [] bs pending hbs hlen
  rwa [List.append_nil] at this

theorem decScan_over (hn : cfg.nParam ≤ n) (hbs : ∀ b ∈ bs, b.last = false) :
    decScan cfg n pending bs = { n := n, pending := pending, rest := [], group := none, done := false } := by
  have := decScan_skips hn pending [] bs hbs
  rwa [List.append_nil] at this

end

/-- The setter's effect in one record: a NaN leaves the value and the history. -/
theorem setpEffect_eq (p : ParamIdx) (w : Word) (s : State) :
    setpEffect p w s =
      { s with
        cur := if isNaN w then s.cur else s.cur.set p.toNat (clampf w (paramMin s p) (paramMax s p)) p.isLt
        events := { s.events with
          notify := if isNaN w then s.events.notify
            else s.events.notify ++ [{ p := p, v := clampf w (paramMin s p) (paramMax s p) }] } } := by
  cases h : isNaN w with
  | true => exact setpEffect_of_nan h p s
  | false => exact setpEffect_of_number h p s

section
variable {n : Nat} {pending : List Byte} {bs rest : List StreamByte} {x : StreamByte}

theorem decContinue_group {b0 b1 b2 b3 : Byte} {w v : Word} {p : ParamIdx} (hn : n < s.cfg.nParam)
    (hbs : ∀ b ∈ bs, b.last = false) (hsi : s.ports.si = bs ++ x :: rest)
    (hgroup : pending ++ bs.map (·.byte) ++ [x.byte] = [b0, b1, b2, b3]) (hp : BitVec.ofNat 5 n = p)
    (hw : (if s.cfg.stateEndian = .le then b3 ++ b2 ++ b1 ++ b0 else b0 ++ b1 ++ b2 ++ b3) = w)
    (hv : clampf w (paramMin s p) (paramMax s p) = v) :
    decContinue n pending s =
      { s with
        cur := if isNaN w then s.cur else s.cur.set p.toNat v p.isLt
        ports := { s.ports with si := rest, stream := if x.last then .idle else .dec (n + 1) [] }
        events := { s.events with
          rsps := if x.last then s.events.rsps ++ [{ port := s.ports.port, word := BitVec.ofNat 32 (n + 1) }]
            else s.events.rsps
          notify := if isNaN w then s.events.notify else s.events.notify ++ [{ p := p, v := v }] } } := by
  rw [decContinue, hsi, decScan_group hn hbs hgroup, wordOfBytes_eq, hw, hp]
  simp only [applyGroup, setpEffect_eq, ← hv]
  cases x.last <;> rfl

theorem decContinue_short (h : s.cfg.nParam ≤ n ∨ pending.length + bs.length < 3) (hbs : ∀ b ∈ bs, b.last = false)
    (hsi : s.ports.si = bs ++ x :: rest) (hx : x.last = true) :
    decContinue n pending s =
      { s with
        ports := { s.ports with si := rest, stream := .idle }
        events := { s.events with rsps := s.events.rsps ++ [{ port := s.ports.port, word := BitVec.ofNat 32 n }] } } := by
  rw [decContinue, hsi, decScan_short h hbs hx]
  rfl

theorem decContinue_part (hn : n < s.cfg.nParam) (hbs : ∀ b ∈ bs, b.last = false) (hsi : s.ports.si = bs)
    (hlen : pending.length + bs.length ≤ 3) :
    decContinue n pending s =
      { s with ports := { s.ports with si := [], stream := .dec n (pending ++ bs.map (·.byte)) } } := by
  rw [decContinue, hsi, decScan_part hn hbs hlen]
  rfl

theorem decContinue_over (hn : s.cfg.nParam ≤ n) (hbs : ∀ b ∈ bs, b.last = false) (hsi : s.ports.si = bs) :
    decContinue n pending s = { s with ports := { s.ports with si := [], stream := .dec n pending } } := by
  rw [decContinue, hsi, decScan_over hn hbs]
  rfl

end

end

end Sys2Proof.Machine
end

/-! ## The statements about the steps of ENC and DEC -/

section
open Sys2Proof Sys2Proof.Machine

/-- Settles O46: the image by offset, and ENC by whether the consumer takes all its bytes. -/
theorem encEmitsImage : Obligations.EncEmitsImage := by
  intro s _
  refine ⟨image_length s, fun p k hp hk => image_getElem? s hp hk, fun hport => ⟨fun hroom => ?_, fun hroom => ?_⟩,
    fun rest hserved henc hpos => ⟨fun hroom => ?_, fun hroom => ?_⟩⟩
  · rw [exec_enc hport, encContinue_of_room (by rwa [image_length]), image_length, hport]
  · rw [exec_enc hport, encContinue_of_full (by rwa [image_length])]
  · rw [step_enc hserved henc hpos, encContinue_of_room (s := servingC s) hroom]
    rfl
  · rw [step_enc hserved henc hpos, encContinue_of_full (s := servingC s) hroom]
    rfl

/-- Settles O47: the first step scans from no group done. -/
theorem decTakesAGroup : Obligations.DecTakesAGroup := by
  intro s b0 b1 b2 b3 rest hport hpos h0 h1 h2
  refine ⟨fun hsi hlast => ?_, fun hsi hlast => ?_, fun hsi => ?_, fun hsi => ?_, fun hsi => ?_, fun bs hlen hbs hsi => ?_⟩
  · rw [exec_dec hport, decContinue_group (bs := [b0, b1, b2]) hpos (by simp [h0, h1, h2]) hsi rfl rfl rfl rfl, hlast]
    rfl
  · rw [exec_dec hport, decContinue_group (bs := [b0, b1, b2]) hpos (by simp [h0, h1, h2]) hsi rfl rfl rfl rfl, hlast, hport]
    rfl
  · rw [exec_dec hport, decContinue_short (bs := []) (.inr (by simp)) (by simp) hsi rfl]
    rfl
  · rw [exec_dec hport, decContinue_short (bs := [b0]) (.inr (by simp)) (by simp [h0]) hsi rfl]
    rfl
  · rw [exec_dec hport, decContinue_short (bs := [b0, b1]) (.inr (by simp)) (by simp [h0, h1]) hsi rfl]
    rfl
  · rw [exec_dec hport, decContinue_part hpos hbs hsi (by simpa using hlen)]
    rfl

/-- Settles O48: the later steps scan on from the groups done and the bytes kept. -/
theorem decFollowsTheStream : Obligations.DecFollowsTheStream := by
  intro s n pending bs hserved _ hdec hbs
  refine ⟨fun x rest b0 b1 b2 b3 hn hsi hgroup => ?_, fun x rest hshort hsi hx => ?_,
    fun hne hsi => ⟨fun hn hlen => ?_, fun hn => ?_⟩⟩
  · rw [step_dec hserved hdec (by simp [hsi]), decContinue_group (s := servingC s) hn hbs hsi hgroup rfl rfl rfl]
    rfl
  · rw [step_dec hserved hdec (by simp [hsi]), decContinue_short (s := servingC s) hshort hbs hsi hx]
    rfl
  · rw [step_dec hserved hdec (hsi ▸ hne), decContinue_part (s := servingC s) hn hbs hsi hlen]
  · rw [step_dec hserved hdec (hsi ▸ hne), decContinue_over (s := servingC s) hn hbs hsi]

end

section
/-! The round trip of the codec (46_state_codec.md R285): the bytes of the image from offset 4·k are the group of parameter k,
and DEC stores the word of that group unchanged, since it is in range already. -/

namespace Sys2Proof.Machine

/-! ## The groups of an image -/

section
variable {α : Type}

theorem drop_of_getElem? {l : List α} {i : Nat} {a : α} (h : l[i]? = some a) : l.drop i = a :: l.drop (i + 1) := by
  obtain ⟨hi, rfl⟩ := List.getElem?_eq_some_iff.mp h
  exact List.drop_eq_getElem_cons hi

end

/-- The first three bytes of group `k`. -/
def groupHead (s : State) (k : Nat) : List StreamByte := [imageByte s k 0, imageByte s k 1, imageByte s k 2]

theorem image_drop (s : State) {k : Nat} (hk : k < s.cfg.nParam) :
    (image s).drop (4 * k) = groupHead s k ++ imageByte s k 3 :: (image s).drop (4 * (k + 1)) := by
  have hbyte : ∀ i, i < 4 → (image s).drop (4 * k + i) = imageByte s k i :: (image s).drop (4 * k + (i + 1)) :=
    fun i hi => drop_of_getElem? (image_getElem? s hk hi)
  have h0 := hbyte 0 (by decide)
  rw [hbyte 1 (by decide), hbyte 2 (by decide), hbyte 3 (by decide)] at h0
  exact h0

theorem groupHead_not_last (s : State) (k : Nat) : ∀ b ∈ groupHead s k, b.last = false := by
  simp [groupHead, imageByte]

/-- The four bytes of a word put together again are the word. -/
theorem append_bytes (w : Word) :
    (w.extractLsb' 24 8 ++ w.extractLsb' 16 8 ++ w.extractLsb' 8 8 ++ w.extractLsb' 0 8 : BitVec (8 + 8 + 8 + 8)) = w := by
  rw [BitVec.extractLsb'_append_extractLsb'_eq_extractLsb' (show 24 = 16 + 8 from rfl),
    BitVec.extractLsb'_append_extractLsb'_eq_extractLsb' (show 16 = 8 + 8 from rfl),
    BitVec.extractLsb'_append_extractLsb'_eq_extractLsb' (show 8 = 0 + 8 from rfl)]
  exact BitVec.extractLsb'_eq_self

/-- In either byte order the group holds the parameter's word. -/
theorem groupWord (s : State) (k : Nat) :
    (if s.cfg.stateEndian = .le then
        (imageByte s k 3).byte ++ (imageByte s k 2).byte ++ (imageByte s k 1).byte ++ (imageByte s k 0).byte
      else (imageByte s k 0).byte ++ (imageByte s k 1).byte ++ (imageByte s k 2).byte ++ (imageByte s k 3).byte) =
      param s (BitVec.ofNat 5 k) := by
  split
  next hle =>
    simp only [imageByte, hle, if_true]
    exact append_bytes _
  next hbe =>
    simp only [imageByte, hbe, if_false]
    exact append_bytes _

/-! ## The decoder on the way -/

/-- `v` is `u` after DEC has taken `k` groups of the image of `s`. -/
structure Decoding (s u v : State) (k : Nat) : Prop where
  cfg : v.cfg = u.cfg
  rst : v.ports.rst = false
  aCmds : v.ports.aCmds = []
  port : v.ports.port = .c
  si : v.ports.si = (image s).drop (4 * k)
  params : ∀ p, p.toNat < k → param v p = param s p
  notify : v.events.notify.length = u.events.notify.length + k
  d : v.d = u.d
  csr : v.csr = u.csr
  lfos : v.lfos = u.lfos
  dls : v.dls = u.dls
  mem : v.mem = u.mem

theorem nParam_bounds_of_wf {cfg : Config} (h : cfg.wf = true) : 1 ≤ cfg.nParam ∧ cfg.nParam ≤ 31 := by
  simp only [Config.wf, Bool.and_eq_true, decide_eq_true_eq] at h
  obtain ⟨⟨⟨⟨⟨⟨⟨⟨-, hparams⟩, -⟩, -⟩, -⟩, -⟩, -⟩, -⟩, -⟩ := h
  exact hparams

section
variable {s u v : State} {k : Nat}

/-- A value in range is stored as it is. -/
theorem clampf_of_inRange {p : ParamIdx} (h : ParamInRange s p) :
    clampf (param s p) (paramMin s p) (paramMax s p) = param s p := by
  obtain ⟨-, hmin, hmax⟩ := h
  exact clampf_of_inside (not_flt_of_fle hmin) (not_flt_of_fle hmax)

/-- What one group of the image does: its parameter gets the word, and the last group ends the stream. -/
theorem Decoding.decContinue_eq (h : Decoding s u v k) (hptab : u.cfg.ptab = s.cfg.ptab)
    (hendian : u.cfg.stateEndian = s.cfg.stateEndian) (hk : k < s.cfg.nParam)
    (hrange : ParamInRange s (BitVec.ofNat 5 k)) :
    decContinue k [] v =
      { v with
        cur := (setParam (BitVec.ofNat 5 k) (param s (BitVec.ofNat 5 k)) v).cur
        ports := { v.ports with
          si := (image s).drop (4 * (k + 1)), stream := if k + 1 = s.cfg.nParam then .idle else .dec (k + 1) [] }
        events := { v.events with
          rsps := if k + 1 = s.cfg.nParam then v.events.rsps ++ [{ port := .c, word := BitVec.ofNat 32 (k + 1) }]
            else v.events.rsps
          notify := v.events.notify ++ [{ p := BitVec.ofNat 5 k, v := param s (BitVec.ofNat 5 k) }] } } := by
  have hnParam : v.cfg.nParam = s.cfg.nParam := by rw [h.cfg, Config.nParam, hptab, Config.nParam]
  have hclamp : clampf (param s (BitVec.ofNat 5 k)) (paramMin v (BitVec.ofNat 5 k)) (paramMax v (BitVec.ofNat 5 k)) =
      param s (BitVec.ofNat 5 k) := by
    simp only [paramMin, paramMax, h.cfg, Config.param, hptab]
    exact clampf_of_inRange hrange
  have hlast : (imageByte s k 3).last = decide (k + 1 = s.cfg.nParam) := by simp [imageByte]
  have hword := groupWord s k
  rw [← hendian, ← h.cfg] at hword
  rw [decContinue_group (pending := []) (hnParam ▸ hk) (groupHead_not_last s k) (h.si.trans (image_drop s hk)) rfl rfl hword
    hclamp, hrange.1, hlast, h.port]
  simp only [decide_eq_true_eq, Bool.false_eq_true, if_false]
  rfl

theorem Decoding.next (h : Decoding s u v k) (hptab : u.cfg.ptab = s.cfg.ptab)
    (hendian : u.cfg.stateEndian = s.cfg.stateEndian) (hk : k < s.cfg.nParam)
    (hrange : ParamInRange s (BitVec.ofNat 5 k)) : Decoding s u (decContinue k [] v) (k + 1) := by
  rw [h.decContinue_eq hptab hendian hk hrange]
  refine { cfg := h.cfg, rst := h.rst, aCmds := h.aCmds, port := h.port, si := rfl, params := fun p hp => ?_, notify := ?_
           d := h.d, csr := h.csr, lfos := h.lfos, dls := h.dls, mem := h.mem }
  · show param (setParam (BitVec.ofNat 5 k) (param s (BitVec.ofNat 5 k)) v) p = param s p
    by_cases hp' : p = BitVec.ofNat 5 k
    · rw [hp', param_setParam_same]
    · rw [param_setParam_other hp', h.params p]
      have : p.toNat ≠ k := fun heq => hp' (by rw [← heq, BitVec.ofNat_toNat, BitVec.setWidth_eq])
      omega
  · rw [List.length_append, List.length_singleton, h.notify]
    rfl

/-- Serving the C-port again only names the port that moves. -/
theorem Decoding.servingC_eq (h : Decoding s u v k) : servingC v = v := by
  rw [servingC_alone h.aCmds, ← h.port]

theorem run_succ {s t : State} (h : step s = .next t) (j : Nat) :
    Host.Core.run core (j + 1) s = Host.Core.run core j t := by
  have hcore : core.step s = .next t := h
  simp only [Host.Core.run, hcore]

/-- What R285 says of the state the last group leaves. -/
structure Decoded (s u t : State) : Prop extends Decoding s u t s.cfg.nParam where
  idle : t.ports.stream = .idle
  answer : lastResponse t = some { port := .c, word := BitVec.ofNat 32 s.cfg.nParam }

/-- The groups from `k` on: one for the step that is under way, and `j` more. -/
theorem Decoding.run (hptab : u.cfg.ptab = s.cfg.ptab) (hendian : u.cfg.stateEndian = s.cfg.stateEndian)
    (hrange : ∀ k, k < s.cfg.nParam → ParamInRange s (BitVec.ofNat 5 k)) (j : Nat) (h : Decoding s u v k)
    (hj : k + 1 + j = s.cfg.nParam) :
    ∃ t, Host.Core.run core j (decContinue k [] v) = .next t ∧ Decoded s u t := by
  have hk : k < s.cfg.nParam := by omega
  have hnext := h.next hptab hendian hk (hrange k hk)
  have heq := h.decContinue_eq hptab hendian hk (hrange k hk)
  induction j generalizing k v with
  | zero =>
    refine ⟨_, rfl, hj ▸ hnext, ?_, ?_⟩
    · rw [heq]
      exact if_pos (by omega)
    · rw [heq, lastResponse]
      simp only [if_pos (show k + 1 = s.cfg.nParam by omega), List.getLast?_concat]
      rw [← hj]
  | succ j ih =>
    have hk' : k + 1 < s.cfg.nParam := by omega
    have hstream : (decContinue k [] v).ports.stream = .dec (k + 1) [] := by
      rw [heq]
      exact if_neg (by omega)
    have hsi : (decContinue k [] v).ports.si ≠ [] := by
      rw [hnext.si, image_drop s hk']
      simp
    have hstep : step (decContinue k [] v) = .next (decContinue (k + 1) [] (decContinue k [] v)) := by
      rw [step_dec ⟨hnext.rst, .inl hnext.aCmds⟩ hstream hsi, hnext.servingC_eq]
    obtain ⟨t, hrun, hdecoded⟩ := ih hnext (by omega) hk' (hnext.next hptab hendian hk' (hrange _ hk'))
      (hnext.decContinue_eq hptab hendian hk' (hrange _ hk'))
    exact ⟨t, (run_succ hstep j).trans hrun, hdecoded⟩

end

end Sys2Proof.Machine
end

/-! ## The statement about the round trip of the codec -/

section
open Sys2Proof Sys2Proof.Machine

/-- Settles O49, by induction on the groups that are left. -/
theorem codecRoundTrip : Obligations.CodecRoundTrip := by
  intro s u hwf hparams hptab hendian hrst ha hc hidle hsi
  obtain ⟨hpos, h31⟩ : 1 ≤ s.cfg.nParam ∧ s.cfg.nParam ≤ 31 := nParam_bounds_of_wf hwf
  have hrange : ∀ k, k < s.cfg.nParam → ParamInRange s (BitVec.ofNat 5 k) := fun k hk =>
    hparams _ (paramExists_iff.mpr (by rw [BitVec.toNat_ofNat]; omega))
  have hserved : CPortServed u := ⟨hrst, .inl ha⟩
  obtain ⟨v, hv⟩ : ∃ v, v = { servingC u with ports := { (servingC u).ports with cCmds := [] } } := ⟨_, rfl⟩
  have hstart : Decoding s u v 0 := by
    subst hv
    exact { cfg := rfl, rst := hrst, aCmds := ha, port := rfl, si := hsi, params := fun p hp => absurd hp (by omega)
            notify := rfl, d := rfl, csr := rfl, lfos := rfl, dls := rfl, mem := rfl }
  have hstep : step u = .next (decContinue 0 [] v) := by
    rw [step_of_decoded (nextAction_c_command hserved hc hidle) (decode_encode .dec), ← hv, exec_dec hstart.port]
  obtain ⟨t, hrun, hdecoded⟩ := hstart.run hptab hendian hrange (s.cfg.nParam - 1) (by omega)
  refine ⟨t, ?_, fun p hp => hdecoded.params p (paramExists_iff.mp hp), hdecoded.notify, hdecoded.answer, ?_,
    hdecoded.idle, hdecoded.d, hdecoded.csr, hdecoded.lfos, hdecoded.dls, hdecoded.mem⟩
  · have := run_succ hstep (s.cfg.nParam - 1)
    rw [Nat.sub_add_cancel hpos] at this
    exact this.trans hrun
  · rw [hdecoded.si, ← image_length s, List.drop_length]

end
